-- ==== Sys2Proof/Word.lean ====
section
/-! DEFINITION. The word types of the HX40: bytes, Tether Time, sequence numbers, counters. -/

namespace Sys2Proof

/-- One byte on a lane, in a message or in the Calibration Store. -/
abbrev Byte := BitVec 8

/-- A Tether Time value, a 48-bit count of microseconds (R1). -/
abbrev Time := BitVec 48

/-- A sample sequence number (R30) or a pose tag (R57). -/
abbrev Seq := BitVec 32

/-- An accumulator of the Orientation Integrator, in 1/16 microdegree (R42). -/
abbrev Angle := BitVec 32

/-- An unsigned 16-bit event counter (00_scope.md 4.5). -/
abbrev Count := BitVec 16

/-- An unsigned 32-bit link counter (R148). -/
abbrev Count32 := BitVec 32

/-- One of the four downstream lanes D0 to D3. -/
abbrev Lane := Fin 4

end Sys2Proof
end

