-- ==== Sys2Proof/Syntax.lean ====
section
/-! DEFINITION. The commands: one constructor of `Instr` for each row of spec/opcode_table.json. -/

namespace Sys2Proof

/-- One of the two panels, or the eye it shows (R57, R75). -/
inductive Panel where
  | left | right
  deriving DecidableEq, Repr

/-- A device on the Sensor Serial Port (02 section 2.1). -/
inductive Device where
  | inertial | proximity
  deriving DecidableEq, Repr

/-- A host ability word as it arrives on D0 (R132). -/
structure HostWord where
  half : Bool
  full : Bool
  lanes : Byte
  quiet : Bool
  grant : Byte
  user : Byte
  deriving DecidableEq, Repr

/-- The eight results of one monitor scan, in scan order (R117). -/
structure RailCodes where
  vin : BitVec 12
  iin : BitVec 12
  vpanel : BitVec 12
  ipanel : BitVec 12
  vcore : BitVec 12
  vaudio : BitVec 12
  iaudio : BitVec 12
  temp : BitVec 12
  deriving DecidableEq, Repr

/-- The error energy of each lane over one quality window, 0 to 1023 (R139). -/
structure Energies where
  d0 : BitVec 10
  d1 : BitVec 10
  d2 : BitVec 10
  d3 : BitVec 10
  deriving DecidableEq, Repr

/-- A command. A row that is the dispatch of a request carries the request's tag and parameter bytes
(R166, log entry 5); `cut` says that a downstream frame is in reception (R137, log entry 9); the other
operands are what comes from outside with the event. -/
inductive Instr where
  | powerOnReset
  | storeLoadEnd
  | readTime (tag : Byte) (ps : List Byte)
  | addAction (tag : Byte) (ps : List Byte)
  | cancelAction (tag : Byte) (ps : List Byte)
  | listActions (tag : Byte) (ps : List Byte)
  | groupTrigger (tag : Byte) (ps : List Byte)
  | actionExpiry
  | downstreamFrameReception (bytes : List Byte)
  | requestUnknownKind (kind tag : Byte) (ps : List Byte)
  | setSchedule (tag : Byte) (ps : List Byte)
  | setSamplingRate (tag : Byte) (ps : List Byte)
  | setCalibration (tag : Byte) (ps : List Byte)
  | setStillness (tag : Byte) (ps : List Byte)
  | setWear (tag : Byte) (ps : List Byte)
  | setMotionReporting (tag : Byte) (ps : List Byte)
  | readSamples (tag : Byte) (ps : List Byte)
  | readMotionStatus (tag : Byte) (ps : List Byte)
  | samplingTick
  | sensorReadEnd (word : BitVec 16)
  | sensorReadTimeout
  | readOrientation (tag : Byte) (ps : List Byte)
  | setDisplayMode (tag : Byte) (ps : List Byte)
  | readPictureStatus (tag : Byte) (ps : List Byte)
  | panelsOn (tag : Byte) (ps : List Byte)
  | panelsOff (tag : Byte) (ps : List Byte)
  | panelsShow (tag : Byte) (ps : List Byte)
  | panelsStandby (tag : Byte) (ps : List Byte)
  | setEmission (tag : Byte) (ps : List Byte)
  | setPanelGeometry (tag : Byte) (ps : List Byte)
  | readScanStatus (tag : Byte) (ps : List Byte)
  | rampUpEnd (panel : Panel)
  | rampDownEnd (panel : Panel)
  | refreshStart
  | setAttenuation (tag : Byte) (ps : List Byte)
  | startCapture (tag : Byte) (ps : List Byte)
  | stopCapture (tag : Byte) (ps : List Byte)
  | readAudioStatus (tag : Byte) (ps : List Byte)
  | playoutHeadDue
  | currentBlockEnd
  | captureInputFrame (first second : BitVec 16)
  | powerGrant (tag : Byte) (ps : List Byte)
  | setThrottleRow (tag : Byte) (ps : List Byte)
  | setPowerPolicy (tag : Byte) (ps : List Byte)
  | readPowerStatus (tag : Byte) (ps : List Byte)
  | railScanEnd (codes : RailCodes)
  | readLinkStatus (tag : Byte) (ps : List Byte)
  | readLinkCounters (tag : Byte) (ps : List Byte)
  | setLinkQuality (tag : Byte) (ps : List Byte)
  | linkRetrain (tag : Byte) (ps : List Byte) (cut : Bool)
  | linkLoopback (tag : Byte) (ps : List Byte)
  | d0SignalDetect
  | backoffEnd
  | laneWordLock (lane : Lane)
  | laneLockLoss (lane : Lane) (cut : Bool)
  | hostAbilityWord (word : HostWord)
  | trainingLimitExpiry
  | recoveryLimitExpiry
  | qualityWindowEnd (energies : Energies) (cut : Bool)
  | quietMarker (cut : Bool)
  | wakeMarker
  | loopbackTimerExpiry
  | echoTransmissionComplete
  | abilityWordEnd
  | transmissionComplete
  | setChannelFilter (tag : Byte) (ps : List Byte)
  | readChannelFilter (tag : Byte) (ps : List Byte)
  | setReturnPriority (tag : Byte) (ps : List Byte)
  | readReturnStatus (tag : Byte) (ps : List Byte)
  | identify (tag : Byte) (ps : List Byte)
  | readSummary (tag : Byte) (ps : List Byte)
  | setAttentionEnable (tag : Byte) (ps : List Byte)
  | setReportEnable (tag : Byte) (ps : List Byte)
  | functionClearPicture (tag : Byte) (ps : List Byte)
  | functionClearAudio (tag : Byte) (ps : List Byte)
  | functionClearMotion (tag : Byte) (ps : List Byte)
  | functionClearActions (tag : Byte) (ps : List Byte)
  | functionClearCounters (tag : Byte) (ps : List Byte)
  | hubReset (tag : Byte) (ps : List Byte)
  | erasePage (tag : Byte) (ps : List Byte)
  | programStore (tag : Byte) (ps : List Byte)
  | eraseEnd
  | programEnd
  | readStore (tag : Byte) (ps : List Byte)
  | blankCheck (tag : Byte) (ps : List Byte)
  | setProtectBoundary (tag : Byte) (ps : List Byte)
  | readStoreMap (tag : Byte) (ps : List Byte)
  | tetherPowerLoss
  | sensorReadyLineRaised (device : Device)
  | d0SignalLoss
  deriving DecidableEq, Repr

end Sys2Proof
end

