-- ==== Sys2Proof/Decode.lean ====
section
/-! DEFINITION. The command that a word of the opcode table spells. No row of spec/opcode_table.json
gives bits ("fields" is empty in every row), so no word spells a command. -/

namespace Sys2Proof

/-- The command that `w`, `nbits` wide, spells by the table's bits: none, since the table gives none. -/
def decodeTableWord (_nbits _w : Nat) : Option Instr := none

end Sys2Proof
end

