-- ==== Sys2Proof/Config.lean ====
section
/-! DEFINITION. What this silicon fixes, and the free values: what the manual leaves without a value. -/

namespace Sys2Proof

/-- The part code that Identify returns (R172). -/
def Config.partCode : Nat := 0x4840

/-- The silicon revision that Identify returns (R172). -/
def Config.revision : Nat := 2

/-- FREE VALUE, log entry 11: a byte the part sends or stores whose value the manual does not state,
one for every use (`State.freeIndex` counts the uses). -/
opaque Config.freeByte : Nat → Byte

/-- FREE VALUE, log entry 15: whether an output sample scaled by −0.5 × a dB (R105), for attenuation a and
a sample, is the greater in magnitude of the two whole values next to a result that is not whole; the
manual gives the ratio and no rounding. -/
opaque Config.attenuateUp : Nat → BitVec 16 → Bool

/-- FREE VALUE, log entry 32: whether a loopback's remaining time of so many oscillator counts, when it
is no whole number of ms, is carried rounded up in Read Link Status (R147 gives no rounding). -/
opaque Config.remainderUp : Nat → Bool

end Sys2Proof
end

