-- ==== Sys2Proof/Machine/State.lean ====
section
/-! DEFINITION. The state of the HX40: one record per block, plain data, and the machine after reset. -/

namespace Sys2Proof.Machine

/-- How a step can stop with a fault. The HX40 has none: what it cannot do it answers with a status
(12.4) or counts. No command raises one. -/
inductive Fault
  deriving DecidableEq, Repr

/-- How a step can be refused: only for a row that has no meaning yet (safe, it stops). No row is. -/
inductive Refusal where
  | notModelled (mnemonic : String)
  deriving DecidableEq, Repr

/-! ## Shapes shared by the blocks -/

/-- One value for the left and one for the right eye or panel. -/
structure Pair (α : Type) where
  left : α
  right : α
  deriving DecidableEq, Repr

/-- The value of one panel or eye. -/
def Pair.get {α : Type} (p : Pair α) : Panel → α
  | .left => p.left
  | .right => p.right

/-- The pair with the value of one panel or eye replaced. -/
def Pair.set {α : Type} (p : Pair α) : Panel → α → Pair α
  | .left, a => { p with left := a }
  | .right, a => { p with right := a }

/-- One value for each device on the Sensor Serial Port. -/
structure PerDevice (α : Type) where
  inertial : α
  proximity : α
  deriving DecidableEq, Repr

/-- The value of one device. -/
def PerDevice.get {α : Type} (p : PerDevice α) : Device → α
  | .inertial => p.inertial
  | .proximity => p.proximity

/-- The record with the value of one device replaced. -/
def PerDevice.set {α : Type} (p : PerDevice α) : Device → α → PerDevice α
  | .inertial, a => { p with inertial := a }
  | .proximity, a => { p with proximity := a }

/-- The four classes of upstream item (R154). -/
inductive ItemClass where
  | reply | report | motion | capture
  deriving DecidableEq, Repr

/-- One value for each class of upstream item. -/
structure PerClass (α : Type) where
  reply : α
  report : α
  motion : α
  capture : α
  deriving DecidableEq, Repr

/-- The value of one class. -/
def PerClass.get {α : Type} (p : PerClass α) : ItemClass → α
  | .reply => p.reply
  | .report => p.report
  | .motion => p.motion
  | .capture => p.capture

/-- The record with the value of one class replaced. -/
def PerClass.set {α : Type} (p : PerClass α) : ItemClass → α → PerClass α
  | .reply, a => { p with reply := a }
  | .report, a => { p with report := a }
  | .motion, a => { p with motion := a }
  | .capture, a => { p with capture := a }

/-! ## Timebase and Action Scheduler (chapter 1) -/

/-- The form of an action entry with what that form carries (R8). -/
inductive Trigger where
  | timed (due : Time)
  | grouped (group : Nat)
  | timedGrouped (due : Time) (group : Nat)
  deriving DecidableEq, Repr

/-- The nine action kinds (R9). -/
inductive ActionKind where
  | setDisplayMode | setEmission | panelsShow | panelsStandby | setSamplingRate
  | setAttenuation | startCapture | stopCapture | marker
  deriving DecidableEq, Repr

/-- An entry of the Action Table (1.2.1); its arrival place is its place in the list (R8). -/
structure Action where
  id : Byte
  trigger : Trigger
  kind : ActionKind
  params : List Byte
  deriving DecidableEq, Repr

structure Tas where
  /-- Tether Time (R1). -/
  now : Time
  valid : Bool
  stepCount : Count
  markCount : Count
  malformedMarks : Count
  /-- The Action Table in table order (R8). -/
  table : List Action
  deriving DecidableEq, Repr

/-! ## Sensor Sampler (chapter 2) -/

/-- The eight named channels; their order is that of the codes and masks of chapter 12. -/
inductive Channel where
  | gx | gy | gz | ax | ay | az | temp | prox
  deriving DecidableEq, Repr

/-- One value for each named channel. -/
structure PerChannel (α : Type) where
  gx : α
  gy : α
  gz : α
  ax : α
  ay : α
  az : α
  temp : α
  prox : α
  deriving DecidableEq, Repr

/-- The value of one channel. -/
def PerChannel.get {α : Type} (p : PerChannel α) : Channel → α
  | .gx => p.gx
  | .gy => p.gy
  | .gz => p.gz
  | .ax => p.ax
  | .ay => p.ay
  | .az => p.az
  | .temp => p.temp
  | .prox => p.prox

/-- The record with the value of one channel replaced. -/
def PerChannel.set {α : Type} (p : PerChannel α) : Channel → α → PerChannel α
  | .gx, a => { p with gx := a }
  | .gy, a => { p with gy := a }
  | .gz, a => { p with gz := a }
  | .ax, a => { p with ax := a }
  | .ay, a => { p with ay := a }
  | .az, a => { p with az := a }
  | .temp, a => { p with temp := a }
  | .prox, a => { p with prox := a }

/-- The same value for every channel. -/
def PerChannel.const {α : Type} (a : α) : PerChannel α := ⟨a, a, a, a, a, a, a, a⟩

/-- A slot of the Slot List; no channel is NONE (2.2). -/
structure SensorSlot where
  device : Device
  address : Byte
  channel : Option Channel
  deriving DecidableEq, Repr

/-- The bias and gain of a channel; gain 16384 is 1.0 (2.5). -/
structure Calibration where
  bias : Int
  gain : Nat
  deriving DecidableEq, Repr

/-- The four sampling rates (R23). -/
inductive SampleRate where
  | hz100 | hz250 | hz500 | hz1000
  deriving DecidableEq, Repr

/-- What the reads of a set have given one channel so far (R27, R29). -/
inductive Reading where
  | absent
  | good (value : Int) (saturated : Bool)
  | failed
  deriving DecidableEq, Repr

/-- A sample set in progress (R20, R25). `todo` is never empty: its head is the slot being read. -/
structure SampleSet where
  slots : List SensorSlot
  todo : List SensorSlot
  sampleTime : Time
  /-- The tick period of the rate in force at the set's own tick, in µs (R32). -/
  period : Nat
  readings : PerChannel Reading
  /-- Whether a read of the device has failed in this set (R28). -/
  failing : PerDevice Bool
  /-- Oscillator count at the start of the read in progress. -/
  readStart : Nat
  /-- Oscillator count at which the device's ready line was seen, if it has been (R20). -/
  readyAt : Option Nat
  deriving DecidableEq, Repr

/-- A present channel of a sample record (R30). -/
structure ChannelValue where
  value : Int
  stale : Bool
  saturated : Bool
  deriving DecidableEq, Repr

/-- A sample record (R30). -/
structure SampleRecord where
  seq : Seq
  time : Time
  skipped : Nat
  values : PerChannel (Option ChannelValue)
  deriving DecidableEq, Repr

/-- A record of the motion report batch with its three accumulators (R36). -/
structure BatchEntry where
  record : SampleRecord
  yaw : Angle
  pitch : Angle
  roll : Angle
  deriving DecidableEq, Repr

/-- A device's fault state and consecutive failing count (R28). -/
structure DeviceFault where
  faulted : Bool
  failing : Nat
  deriving DecidableEq, Repr

/-- The presence state (R35). -/
inductive Presence where
  | active | still | removed
  deriving DecidableEq, Repr

/-- The stillness and wear settings (R32 to R34); the Still Delay is in seconds. -/
structure WearSettings where
  gyroThreshold : Nat
  accelThreshold : Nat
  stillDelay : Nat
  wearThreshold : Int
  wearHysteresis : Nat
  deriving DecidableEq, Repr

structure Smp where
  slotList : List SensorSlot
  requestedRate : SampleRate
  calibration : PerChannel Calibration
  settings : WearSettings
  /-- Oscillator count of the next tick; none while the tick timer is stopped (R25). -/
  tickDue : Option Nat
  set : Option SampleSet
  /-- The skipped-tick tally, 0 to 255 (R26). -/
  skipped : Nat
  /-- The last good value of each channel (R27). -/
  held : PerChannel Int
  /-- The last sequence number given, 0 before the first (R30). -/
  lastSeq : Seq
  /-- The Sample Ring, oldest first (R31). -/
  ring : List SampleRecord
  faults : PerDevice DeviceFault
  /-- Still time in µs (R32). -/
  stillTime : Nat
  /-- The stored previous AX, AY and AZ (R32). -/
  previous : PerChannel (Option Int)
  removalRun : Nat
  returnRun : Nat
  /-- The motion state is STILL (R33). -/
  still : Bool
  /-- The wear state is REMOVED (R34). -/
  removed : Bool
  presence : Presence
  reporting : Bool
  batchSize : Nat
  batch : List BatchEntry
  overruns : Count
  failedReads : PerDevice Count
  saturatedValues : Count
  faultEntries : Count
  deriving DecidableEq, Repr

/-! ## Orientation Integrator (chapter 3) -/

/-- The three rate channels an angle may take its rate from (R41). -/
inductive RateChannel where
  | gx | gy | gz
  deriving DecidableEq, Repr

/-- One entry of the axis map: source and sign (R41). -/
structure AxisSource where
  source : RateChannel
  negative : Bool
  deriving DecidableEq, Repr

structure AxisMap where
  yaw : AxisSource
  pitch : AxisSource
  roll : AxisSource
  deriving DecidableEq, Repr

/-- An entry of the Pose History (R46). -/
structure PoseEntry where
  seq : Seq
  time : Time
  yaw : Angle
  pitch : Angle
  roll : Angle
  yawRate : Int
  pitchRate : Int
  interval : Nat
  yawZeroed : Bool
  pitchZeroed : Bool
  rollZeroed : Bool
  deriving DecidableEq, Repr

structure Ori where
  axisMap : AxisMap
  yaw : Angle
  pitch : Angle
  roll : Angle
  previousTime : Option Time
  /-- The Pose History, oldest first (R46). -/
  history : List PoseEntry
  intervalClamps : Count
  lookups : Count
  missing : Count
  aged : Count
  deriving DecidableEq, Repr

/-! ## Frame Intake (chapter 4) -/

inductive RefreshRate where
  | hz60 | hz72 | hz90 | hz120
  deriving DecidableEq, Repr

/-- A valid display mode record (4.1.1); its one pixel format is 8-8-8. -/
structure DisplayMode where
  rate : RefreshRate
  gh : Nat
  gv : Nat
  deriving DecidableEq, Repr

inductive SlotState where
  | free | filling | complete | scanning
  deriving DecidableEq, Repr

/-- A frame slot (R57). `lines` are the lines that its place in stacked DRAM holds, from line 0 on; beyond
the next line they are those of earlier frames (log entry 17). -/
structure FrameSlot where
  state : SlotState
  frame : BitVec 16
  tag : Seq
  noShift : Bool
  nextLine : Nat
  order : BitVec 32
  lines : List (List Byte)
  deriving DecidableEq, Repr

/-- The nine picture counters of an eye (R72). -/
structure PictureCounters where
  torn : Count
  dropped : Count
  repeated : Count
  blank : Count
  orphan : Count
  duplicate : Count
  unmoded : Count
  malformed : Count
  completed : Count
  deriving DecidableEq, Repr

structure Eye where
  slots : Vector FrameSlot 3
  /-- The completion counter (R60). -/
  completions : BitVec 32
  counters : PictureCounters
  deriving DecidableEq, Repr

structure Fri where
  /-- The display mode record; none is invalid (R54). -/
  mode : Option DisplayMode
  eyes : Pair Eye
  deriving DecidableEq, Repr

/-! ## Scan-Out (chapter 5) -/

inductive PanelState where
  | off | rampUp | standby | showing | rampDown
  deriving DecidableEq, Repr

/-- A panel's long operation in progress (R96). -/
inductive LongOp where
  | none | on | off
  deriving DecidableEq, Repr

/-- The source window a panel scans: its first column and line (R90). -/
structure Window where
  column : Nat
  line : Nat
  deriving DecidableEq, Repr

/-- The four scan counters of a panel (R95). -/
structure ScanCounters where
  stale : Count
  clamped : Count
  leadClamped : Count
  emergency : Count
  deriving DecidableEq, Repr

structure PanelCtl where
  state : PanelState
  /-- Oscillator count at which the ramp in progress ends (R75). -/
  rampEnd : Nat
  longOp : LongOp
  requested : Nat
  applied : Nat
  sx : Int
  sy : Int
  /-- What the panel scans in this period; none is black or dark (R84). -/
  window : Option Window
  counters : ScanCounters
  deriving DecidableEq, Repr

structure Geometry where
  ppdH : Nat
  ppdV : Nat
  latency : Nat
  deriving DecidableEq, Repr

/-- How a refresh start takes the work of two panels that are both SHOWING: both panels' with nothing between
them, or one panel's alone, the other's being taken at the next REFRESH_START (R84, log entry 19). With one
panel SHOWING its work is taken either way. -/
inductive RefreshTurn where
  | both
  | only (panel : Panel)
  deriving DecidableEq, Repr

/-- A refresh start of which one panel's work is still to be taken (R84): its Tether Time, that panel, and
the Refresh report entry of the other. -/
structure Refreshing where
  start : Time
  panel : Panel
  entry : List Byte
  deriving DecidableEq, Repr

structure Sco where
  panels : Pair PanelCtl
  /-- Oscillator count of the next refresh start; none while the timer is stopped (R83). -/
  refreshDue : Option Nat
  latestRefresh : Time
  /-- The latest refresh start while one panel's work of it is still to be taken (R84). -/
  refreshing : Option Refreshing
  geometry : Geometry
  deriving DecidableEq, Repr

/-! ## Audio Unit (chapter 6) -/

/-- A playout block (R98); `samples` are its sample bytes as they arrived. -/
structure AudioBlock where
  time : Time
  frames : Nat
  samples : List Byte
  deriving DecidableEq, Repr

/-- The current block with the oscillator counts of its first frame and of its end (R101). -/
structure CurrentBlock where
  block : AudioBlock
  first : Nat
  ends : Nat
  deriving DecidableEq, Repr

inductive PlayState where
  | idle | waiting | playing | starved
  deriving DecidableEq, Repr

/-- The block being gathered: its capture time and its frames so far (R108). -/
structure PartialBlock where
  time : Time
  frames : Nat
  samples : List (BitVec 16)
  deriving DecidableEq, Repr

/-- A completed capture block (6.5). -/
structure CaptureBlock where
  number : BitVec 16
  time : Time
  frames : Nat
  channels : Nat
  samples : List (BitVec 16)
  deriving DecidableEq, Repr

/-- The eight audio counters (R110). -/
structure AudioCounters where
  duplicate : Count
  playoutOverflow : Count
  malformed : Count
  late : Count
  underrun : Count
  started : Count
  captureOverflow : Count
  captured : Count
  deriving DecidableEq, Repr

structure Aud where
  /-- The Playout Queue, earliest presentation time first (R98). -/
  queue : List AudioBlock
  current : Option CurrentBlock
  play : PlayState
  requestedAtt : Nat
  capturing : Bool
  framesPerBlock : Nat
  channels : Nat
  partialBlock : Option PartialBlock
  /-- The Capture Queue, oldest first (R109). -/
  captureQueue : List CaptureBlock
  blockNumber : BitVec 16
  counters : AudioCounters
  /-- Oscillator count at which the Serial Audio Port started (R184). -/
  portStart : Option Nat
  /-- Oscillator count of the last input frame's place in the cadence. -/
  lastInput : Nat
  deriving DecidableEq, Repr

/-! ## Power Manager (chapter 7) -/

/-- A row of the Throttle Table (7.6). -/
structure ThrottleRow where
  emissionCap : Nat
  minAttenuation : Nat
  maxRate : SampleRate
  deriving DecidableEq, Repr

/-- The averaging window in progress (R118). -/
structure PowerWindow where
  sum : Nat
  scans : Nat
  deriving DecidableEq, Repr

structure Pmg where
  contract : Nat
  rails : RailCodes
  scanPower : Nat
  /-- Oscillator count at which the scan in progress ends (R117). -/
  scanDue : Nat
  /-- The window in progress; none from a reset to the end of its store load (R129). -/
  window : Option PowerWindow
  windowLength : Nat
  lastAverage : Nat
  hysteresis : Nat
  stillEmission : Nat
  ps : Fin 4
  below : Nat
  ts : Fin 4
  bs : Fin 4
  stage : Fin 4
  worst : Fin 4
  emergency : Bool
  lowScans : Nat
  rows : Vector ThrottleRow 4
  overContract : Count
  stageChanges : Count
  emergencies : Count
  deriving DecidableEq, Repr

/-! ## Upstream items and messages (chapters 9 and 10) -/

/-- The reply statuses (12.4). -/
inductive Status where
  | done | busy | state | range | full | inUse | notFound | isProtected | notBlank | unknown | length
  deriving DecidableEq, Repr

/-- The seven report kinds (R168). -/
inductive ReportKind where
  | attention | timeStep | actionDone | presence | power | link | refresh
  deriving DecidableEq, Repr

/-- A reply (R165). `serial` tells one reply from another inside the part (log entry 31). -/
structure Reply where
  serial : Nat
  kind : Byte
  tag : Byte
  status : Status
  fields : List Byte
  deriving DecidableEq, Repr

structure Report where
  kind : ReportKind
  fields : List Byte
  deriving DecidableEq, Repr

/-- An upstream item: its class and payload (R154). -/
inductive Item where
  | reply (r : Reply)
  | report (r : Report)
  | motion (payload : List Byte)
  | capture (b : CaptureBlock)
  deriving DecidableEq, Repr

inductive TxSlot where
  | empty
  | occupied (item : Item)
  | transmitting (item : Item)
  deriving DecidableEq, Repr

structure Rch where
  slots : Vector TxSlot 4
  pendingMotion : Option (List Byte)
  priority : PerClass Nat
  superseded : Count
  dropped : PerClass Count
  sent : PerClass Count
  deriving DecidableEq, Repr

/-! ## Tether Link (chapter 8) -/

inductive LinkState where
  | down | train | up | quiet | recover
  deriving DecidableEq, Repr

/-- A lane rate that can be run (8.1). -/
inductive LaneRate where
  | half | full
  deriving DecidableEq, Repr

/-- The quality settings (R142). -/
structure QualitySettings where
  windowLength : Nat
  thresholds : Vector Nat 7
  hysteresis : Nat
  fallback : Nat
  deriving DecidableEq, Repr

/-- The loopback state (R145): armed with its duration in s and the reply that starts it, or running
until an oscillator count. -/
inductive Loopback where
  | none
  | armed (seconds : Nat) (serial : Nat)
  | running (ends : Nat)
  deriving DecidableEq, Repr

/-- The part's ability word (8.2.1). -/
structure PartWord where
  half : Bool
  full : Bool
  lanes : Nat
  quiet : Bool
  request : Nat
  user : Byte
  deriving DecidableEq, Repr

/-- What U0 is sending, and the oscillator count at which it ends (R138, R146); `arrived` says that the
echo's sending began in the very event of its arrival (R146, log entry 30). -/
inductive U0 where
  | idle
  | abilityWord (word : PartWord) (ends : Nat)
  | slot (index : Fin 4) (frame : List Byte) (ends : Nat)
  | echo (frame : List Byte) (arrived : Bool) (ends : Nat)
  deriving DecidableEq, Repr

/-- The nine link counters (R148). -/
structure LinkCounters where
  good : Count32
  crcFailures : Count32
  malformed : Count32
  sent : Count32
  trainingFailures : Count32
  recoveries : Count32
  protocolErrors : Count32
  echoed : Count32
  echoDrops : Count32
  deriving DecidableEq, Repr

structure Lnk where
  state : LinkState
  /-- The rate; none reads NONE (R130). -/
  rate : Option LaneRate
  active : Vector Bool 4
  locked : Vector Bool 4
  /-- The target rate of the recovery (R134); read in RECOVER only. -/
  target : LaneRate
  /-- A host word has arrived since entry to RECOVER (R134). -/
  wordArrived : Bool
  preferred : LaneRate
  heldWord : Option HostWord
  partner : Option HostWord
  /-- The grant as received (R133). -/
  grantReceived : Option Nat
  /-- The grant as applied (R133). -/
  grantApplied : Option Nat
  grades : Vector Nat 4
  worst : Vector Nat 4
  lowWindows : Nat
  crcTally : Nat
  /-- Oscillator count at which the quality window in progress ends (R139). -/
  windowEnd : Option Nat
  quality : QualitySettings
  downLatch : Bool
  highErrorLatch : Bool
  quietLatch : Bool
  counters : LinkCounters
  latestUp : Time
  loopback : Loopback
  echoQueue : List (List Byte)
  u0 : U0
  d0Signal : Bool
  /-- End of the backoff, while one runs (R131). -/
  backoff : Option Nat
  /-- End of the training or recovery limit (R132, R134). -/
  limit : Option Nat
  /-- The first load of the Calibration Store has ended (R131). -/
  loaded : Bool
  ownRequest : Nat
  ownUser : Byte
  /-- The power request in the word of the latest training (R132). -/
  sentRequest : Nat
  /-- The user byte in the word of the latest training (R132). -/
  sentUser : Byte
  deriving DecidableEq, Repr

/-! ## Channel Filter (chapter 9) -/

inductive Destination where
  | control | time | pictureL | pictureR | audio | discard
  deriving DecidableEq, Repr

structure FilterEntry where
  enabled : Bool
  value : BitVec 12
  mask : BitVec 12
  dest : Destination
  hits : Count
  deriving DecidableEq, Repr

structure Cfl where
  entries : Vector FilterEntry 8
  unmatched : Count
  deriving DecidableEq, Repr

/-! ## Message Engine (chapter 10) -/

/-- An admitted request (R165): kind code, tag and parameters. -/
structure Request where
  kind : Byte
  tag : Byte
  params : List Byte
  deriving DecidableEq, Repr

/-- What a request in progress holds (R167): the panels still ramping for it and its panel set, the
store, the link, or the serial of the Hub Reset reply it waits for. -/
inductive Resource where
  | panels (ramping : List Panel) (set : Byte)
  | store
  | link
  | reset (serial : Nat)
  deriving DecidableEq, Repr

structure InProgress where
  kind : Byte
  tag : Byte
  resource : Resource
  deriving DecidableEq, Repr

/-- The six report enables (R169). -/
structure ReportEnables where
  refresh : Bool
  link : Bool
  power : Bool
  timeStep : Bool
  actionDone : Bool
  presence : Bool
  deriving DecidableEq, Repr

structure Mge where
  requests : List Request
  inProgress : List InProgress
  replies : List Reply
  reports : List Report
  admitted : Nat
  summary : BitVec 8
  mask : BitVec 8
  outstanding : Bool
  enables : ReportEnables
  overruns : Count
  protocolErrors : Count
  malformed : Count
  reportDrops : Count
  /-- The serial of the next reply (log entry 31). -/
  nextSerial : Nat
  deriving DecidableEq, Repr

/-! ## Calibration Store (chapter 11) -/

/-- The bytes of the store that differ from 0xFF, addresses strictly rising. -/
abbrev StoreMemory := List Host.Cell

/-- The operation state with the operation's page, data and end (R180). -/
inductive StoreOp where
  | idle
  | loading (ends : Nat)
  | erasing (page : Nat) (ends : Nat)
  | programming (page offset : Nat) (data : List Byte) (ends : Nat)
  deriving DecidableEq, Repr

/-- The nine record types (R177). -/
inductive RecordType where
  | ident | sensor | axis | panel | throttle | filter | power | schedule | wear
  deriving DecidableEq, Repr

/-- Where a load took a record type from: no page is DEFAULT (R178). -/
structure MapEntry where
  page : Option Nat
  taken : Bool
  deriving DecidableEq, Repr

/-- The store map of the latest load (R178). -/
structure StoreMap where
  valid : Vector Bool 8
  ident : MapEntry
  sensor : MapEntry
  axis : MapEntry
  panel : MapEntry
  throttle : MapEntry
  filter : MapEntry
  power : MapEntry
  schedule : MapEntry
  wear : MapEntry
  deriving DecidableEq, Repr

structure Cst where
  array : StoreMemory
  boundary : Nat
  op : StoreOp
  /-- A Hub Reset took effect during an erase or program: its load begins at the end (R178). -/
  loadOwed : Bool
  map : StoreMap
  serialNumber : BitVec 32
  loads : Count
  erases : Count
  programs : Count
  refusals : Count
  sensorRail : Bool
  audioRail : Bool
  deriving DecidableEq, Repr

/-! ## The whole part -/

structure State where
  /-- The local oscillator's count in 1/750 µs (log entry 4). -/
  osc : Nat
  powered : Bool
  /-- How many free values have been used (log entry 11). -/
  freeIndex : Nat
  tas : Tas
  smp : Smp
  ori : Ori
  fri : Fri
  sco : Sco
  aud : Aud
  pmg : Pmg
  lnk : Lnk
  cfl : Cfl
  rch : Rch
  mge : Mge
  cst : Cst
  /-- The commands that are waiting, first in, first out. -/
  pending : List Instr
  /-- The model's own, set from outside as `pending` is: how the coming refresh starts take the panels' work,
  first in, first out; both panels' at once where it is empty (R84, log entry 19). -/
  turns : List RefreshTurn
  deriving DecidableEq, Repr

/-! ## Named updates, one per field -/

def State.setFree (s : State) (n : Nat) : State := { s with freeIndex := n }
def State.setTas (s : State) (b : Tas) : State := { s with tas := b }
def State.setSmp (s : State) (b : Smp) : State := { s with smp := b }
def State.setOri (s : State) (b : Ori) : State := { s with ori := b }
def State.setFri (s : State) (b : Fri) : State := { s with fri := b }
def State.setSco (s : State) (b : Sco) : State := { s with sco := b }
def State.setAud (s : State) (b : Aud) : State := { s with aud := b }
def State.setPmg (s : State) (b : Pmg) : State := { s with pmg := b }
def State.setLnk (s : State) (b : Lnk) : State := { s with lnk := b }
def State.setCfl (s : State) (b : Cfl) : State := { s with cfl := b }
def State.setRch (s : State) (b : Rch) : State := { s with rch := b }
def State.setMge (s : State) (b : Mge) : State := { s with mge := b }
def State.setCst (s : State) (b : Cst) : State := { s with cst := b }
def State.setTurns (s : State) (q : List RefreshTurn) : State := { s with turns := q }
def State.setPending (s : State) (q : List Instr) : State := { s with pending := q }

/-! ## Reset values -/

/-- The default Slot List (2.2). -/
def Smp.defaultSlots : List SensorSlot :=
  [⟨.inertial, 0x22, some .gx⟩, ⟨.inertial, 0x24, some .gy⟩, ⟨.inertial, 0x26, some .gz⟩,
   ⟨.inertial, 0x28, some .ax⟩, ⟨.inertial, 0x2A, some .ay⟩, ⟨.inertial, 0x2C, some .az⟩,
   ⟨.inertial, 0x20, some .temp⟩, ⟨.proximity, 0x10, some .prox⟩]

/-- The default bias and gain of a channel (2.5). -/
def Calibration.default : Calibration := ⟨0, 16384⟩

/-- The default stillness and wear settings (R32 to R34). -/
def WearSettings.default : WearSettings := ⟨16, 41, 10, 200, 50⟩

/-- Power-on values of the Sensor Sampler (R40). -/
def Smp.reset : Smp where
  slotList := Smp.defaultSlots
  requestedRate := .hz1000
  calibration := .const Calibration.default
  settings := WearSettings.default
  tickDue := none
  set := none
  skipped := 0
  held := .const 0
  lastSeq := 0
  ring := []
  faults := ⟨⟨false, 0⟩, ⟨false, 0⟩⟩
  stillTime := 0
  previous := .const none
  removalRun := 0
  returnRun := 0
  still := false
  removed := false
  presence := .active
  reporting := true
  batchSize := 1
  batch := []
  overruns := 0
  failedReads := ⟨0, 0⟩
  saturatedValues := 0
  faultEntries := 0

/-- Power-on values of the Timebase and Action Scheduler (R19). -/
def Tas.reset : Tas := ⟨0, false, 0, 0, 0, []⟩

/-- The default axis map (3.1). -/
def AxisMap.default : AxisMap := ⟨⟨.gz, false⟩, ⟨.gx, false⟩, ⟨.gy, false⟩⟩

/-- Power-on values of the Orientation Integrator (R53). -/
def Ori.reset : Ori := ⟨AxisMap.default, 0, 0, 0, none, [], 0, 0, 0, 0⟩

/-- A FREE frame slot (R57). -/
def FrameSlot.freed : FrameSlot := ⟨.free, 0, 0, false, 0, 0, []⟩

/-- An eye with every slot FREE and every counter 0 (R74). -/
def Eye.reset : Eye := ⟨Vector.replicate 3 FrameSlot.freed, 0, ⟨0, 0, 0, 0, 0, 0, 0, 0, 0⟩⟩

/-- Power-on values of the Frame Intake (R74). -/
def Fri.reset : Fri := ⟨none, ⟨Eye.reset, Eye.reset⟩⟩

/-- A panel that is OFF with the power-on emission (R97). -/
def PanelCtl.reset : PanelCtl := ⟨.off, 0, .none, 512, 0, 0, 0, none, ⟨0, 0, 0, 0⟩⟩

/-- The default panel geometry (R91). -/
def Geometry.default : Geometry := ⟨5120, 5120, 1500⟩

/-- Power-on values of the Scan-Out (R97). -/
def Sco.reset : Sco := ⟨⟨PanelCtl.reset, PanelCtl.reset⟩, none, 0, none, Geometry.default⟩

/-- Power-on values of the Audio Unit (R114). -/
def Aud.reset : Aud where
  queue := []
  current := none
  play := .idle
  requestedAtt := 24
  capturing := false
  framesPerBlock := 480
  channels := 2
  partialBlock := none
  captureQueue := []
  blockNumber := 0
  counters := ⟨0, 0, 0, 0, 0, 0, 0, 0⟩
  portStart := none
  lastInput := 0

/-- The default Throttle Table (7.6). -/
def Pmg.defaultRows : Vector ThrottleRow 4 :=
  #v[⟨1023, 0, .hz1000⟩, ⟨768, 0, .hz1000⟩, ⟨512, 12, .hz500⟩, ⟨0, 24, .hz250⟩]

/-- Power-on values of the Power Manager (R129); the first scan ends 1000 µs after power-on (R117). -/
def Pmg.reset : Pmg where
  contract := 4000
  rails := ⟨0, 0, 0, 0, 0, 0, 0, 0⟩
  scanPower := 0
  scanDue := 750000
  window := none
  windowLength := 64
  lastAverage := 0
  hysteresis := 500
  stillEmission := 256
  ps := 0
  below := 0
  ts := 0
  bs := 0
  stage := 0
  worst := 0
  emergency := false
  lowScans := 0
  rows := Pmg.defaultRows
  overContract := 0
  stageChanges := 0
  emergencies := 0

/-- The default quality settings (R142). -/
def QualitySettings.default : QualitySettings := ⟨512, #v[100, 80, 64, 50, 40, 32, 25], 4, 2⟩

/-- Power-on values of the Tether Link (R149). -/
def Lnk.reset : Lnk where
  state := .down
  rate := none
  active := Vector.replicate 4 false
  locked := Vector.replicate 4 false
  target := .full
  wordArrived := false
  preferred := .full
  heldWord := none
  partner := none
  grantReceived := none
  grantApplied := none
  grades := Vector.replicate 4 0
  worst := Vector.replicate 4 7
  lowWindows := 0
  crcTally := 0
  windowEnd := none
  quality := QualitySettings.default
  downLatch := false
  highErrorLatch := false
  quietLatch := false
  counters := ⟨0, 0, 0, 0, 0, 0, 0, 0, 0⟩
  latestUp := 0
  loopback := .none
  echoQueue := []
  u0 := .idle
  d0Signal := false
  backoff := none
  limit := none
  loaded := false
  ownRequest := 40
  ownUser := 0
  sentRequest := 40
  sentUser := 0

/-- The Channel Filter before its first load: it routes nothing (R151). -/
def Cfl.reset : Cfl := ⟨Vector.replicate 8 ⟨false, 0, 0, .discard, 0⟩, 0⟩

/-- The default class priority table (R158). -/
def Rch.defaultPriority : PerClass Nat := ⟨0, 3, 1, 2⟩

/-- Power-on values of the Return Channel (R164). -/
def Rch.reset : Rch :=
  ⟨Vector.replicate 4 .empty, none, Rch.defaultPriority, 0, ⟨0, 0, 0, 0⟩, ⟨0, 0, 0, 0⟩⟩

/-- The default report enables (R168). -/
def ReportEnables.default : ReportEnables := ⟨false, true, true, true, true, true⟩

/-- Power-on values of the Message Engine (R176). -/
def Mge.reset : Mge where
  requests := []
  inProgress := []
  replies := []
  reports := []
  admitted := 0
  summary := 0
  mask := 0xFF
  outstanding := false
  enables := ReportEnables.default
  overruns := 0
  protocolErrors := 0
  malformed := 0
  reportDrops := 0
  nextSerial := 0

/-- A store map in which nothing is valid and nothing was taken. -/
def StoreMap.nothing : StoreMap :=
  ⟨Vector.replicate 8 false, ⟨none, false⟩, ⟨none, false⟩, ⟨none, false⟩, ⟨none, false⟩,
   ⟨none, false⟩, ⟨none, false⟩, ⟨none, false⟩, ⟨none, false⟩, ⟨none, false⟩⟩

/-- Power-on values of the Calibration Store (R183, R184): the first load, which takes 5 ms, has
begun and the sensor and audio rails are on. The store holds nothing written (log entry 6). -/
def Cst.reset : Cst where
  array := []
  boundary := 0
  op := .loading 3750000
  loadOwed := false
  map := StoreMap.nothing
  serialNumber := 0
  loads := 0
  erases := 0
  programs := 0
  refusals := 0
  sensorRail := true
  audioRail := true

/-- The machine right after power-on reset (R184, steps 1 and 2). -/
def State.reset : State where
  osc := 0
  powered := true
  freeIndex := 0
  tas := Tas.reset
  smp := Smp.reset
  ori := Ori.reset
  fri := Fri.reset
  sco := Sco.reset
  aud := Aud.reset
  pmg := Pmg.reset
  lnk := Lnk.reset
  cfl := Cfl.reset
  rch := Rch.reset
  mge := Mge.reset
  cst := Cst.reset
  pending := []
  turns := []

end Sys2Proof.Machine
end

