-- ==== Sys2Proof/Machine/Operands.lean ====
section
/-! DEFINITION. Operand forms: packing and unpacking of parameters (R185), the CRC-32 (R136), tether
frames (12.2), and the codes of chapter 12. -/

namespace Sys2Proof.Machine

/-! ## Packing (R185) -/

/-- The low `k` bytes of `n`, least significant first. -/
def leBytes : Nat → Nat → List Byte
  | 0, _ => []
  | k + 1, n => BitVec.ofNat 8 n :: leBytes k (n / 256)

/-- The number whose bytes, least significant first, are given. -/
def leNat : List Byte → Nat
  | [] => 0
  | b :: bs => b.toNat + 256 * leNat bs

/-- The unsigned field of `len` bytes at byte `off` of a parameter list. -/
def field (ps : List Byte) (off len : Nat) : Nat := leNat ((ps.drop off).take len)

/-- Two's-complement reading of 16 bits. -/
def toSigned16 (n : Nat) : Int := (BitVec.ofNat 16 n).toInt

def pack8 (n : Nat) : List Byte := leBytes 1 n
def pack16 (n : Nat) : List Byte := leBytes 2 n
def pack32 (n : Nat) : List Byte := leBytes 4 n
def pack48 (n : Nat) : List Byte := leBytes 6 n
def packS16 (i : Int) : List Byte := leBytes 2 (BitVec.ofInt 16 i).toNat
def packS32 (i : Int) : List Byte := leBytes 4 (BitVec.ofInt 32 i).toNat
def packFlag (b : Bool) : List Byte := [if b then 1 else 0]
def packTime (t : Time) : List Byte := pack48 t.toNat
def packCount (c : Count) : List Byte := pack16 c.toNat
def packCount32 (c : Count32) : List Byte := pack32 c.toNat

/-- A flag parameter: any value other than 0 is taken as 1. -/
def flagField (ps : List Byte) (off : Nat) : Bool := field ps off 1 != 0

/-- Value `v` held to at least `lo` and at most `hi`. -/
def clampNat (lo hi v : Nat) : Nat := max lo (min hi v)

/-- Integer `v` held to at least `lo` and at most `hi`. -/
def clampInt (lo hi v : Int) : Int := max lo (min hi v)

/-! ## CRC-32 and tether frames (R136, 12.2) -/

/-- One bit of the CRC register, which shifts right because bytes enter least significant bit first;
0xEDB88320 is the generator polynomial of R136 with x³¹ in bit 0. -/
def crcBit (c : BitVec 32) : BitVec 32 :=
  if c.getLsbD 0 then (c >>> 1) ^^^ 0xEDB88320#32 else c >>> 1

/-- One byte into the CRC register. -/
def crcByte (c : BitVec 32) (b : Byte) : BitVec 32 :=
  crcBit (crcBit (crcBit (crcBit (crcBit (crcBit (crcBit (crcBit (c ^^^ b.setWidth 32))))))))

/-- The CRC-32 of a byte string: preset to all ones, inverted at the end (R136). -/
def crc32 (bs : List Byte) : BitVec 32 := ~~~(bs.foldl crcByte 0xFFFFFFFF#32)

/-- The four header bytes of a tether frame: channel in bits 0 to 11, length in bits 12 to 31. -/
def frameHeader (channel len : Nat) : List Byte := pack32 (channel % 4096 + 4096 * len)

/-- A whole tether frame (12.2). -/
def tetherFrame (channel : Nat) (payload : List Byte) : List Byte :=
  let body := frameHeader channel payload.length ++ payload
  body ++ pack32 (crc32 body).toNat

/-- The longest payload of a tether frame (8.1). -/
def maxPayload : Nat := 24576

/-! ## Codes (12.4, 12.5) -/

def Status.code : Status → Nat
  | .done => 0
  | .busy => 1
  | .state => 2
  | .range => 3
  | .full => 4
  | .inUse => 5
  | .notFound => 6
  | .isProtected => 7
  | .notBlank => 8
  | .unknown => 9
  | .length => 10

def ReportKind.code : ReportKind → Nat
  | .attention => 0xC0
  | .timeStep => 0xC1
  | .actionDone => 0xC2
  | .presence => 0xC3
  | .power => 0xC4
  | .link => 0xC5
  | .refresh => 0xC6

def ActionKind.code : ActionKind → Byte
  | .setDisplayMode => 0x38
  | .setEmission => 0x44
  | .panelsShow => 0x42
  | .panelsStandby => 0x43
  | .setSamplingRate => 0x21
  | .setAttenuation => 0x50
  | .startCapture => 0x51
  | .stopCapture => 0x52
  | .marker => 0x1F

/-- The action kind a code names (R9). -/
def ActionKind.ofCode (c : Byte) : Option ActionKind :=
  [ActionKind.setDisplayMode, .setEmission, .panelsShow, .panelsStandby, .setSamplingRate,
    .setAttenuation, .startCapture, .stopCapture, .marker].find? (fun k => k.code = c)

/-- The parameter length of the request that matches an action kind (R10). -/
def ActionKind.paramLength : ActionKind → Nat
  | .setDisplayMode => 4
  | .setEmission => 3
  | .panelsShow => 1
  | .panelsStandby => 1
  | .setSamplingRate => 2
  | .setAttenuation => 2
  | .startCapture => 3
  | .stopCapture => 0
  | .marker => 0

def Trigger.code : Trigger → Nat
  | .timed _ => 1
  | .grouped _ => 2
  | .timedGrouped _ _ => 3

/-- The due time of a timed entry (R8). -/
def Trigger.due : Trigger → Option Time
  | .timed d => some d
  | .grouped _ => none
  | .timedGrouped d _ => some d

/-- The group of a grouped entry (R8). -/
def Trigger.group : Trigger → Option Nat
  | .timed _ => none
  | .grouped g => some g
  | .timedGrouped _ g => some g

def Device.code : Device → Nat
  | .inertial => 0
  | .proximity => 1

def deviceOfCode : Nat → Option Device
  | 0 => some .inertial
  | 1 => some .proximity
  | _ => none

def Channel.all : List Channel := [.gx, .gy, .gz, .ax, .ay, .az, .temp, .prox]

def Channel.code : Channel → Nat
  | .gx => 0
  | .gy => 1
  | .gz => 2
  | .ax => 3
  | .ay => 4
  | .az => 5
  | .temp => 6
  | .prox => 7

def Channel.ofCode (c : Nat) : Option Channel := Channel.all.find? (fun k => k.code = c)

/-- The channel of a slot: a name or NONE (8); none where the code names neither. -/
def slotChannelOfCode (c : Nat) : Option (Option Channel) :=
  if c = 8 then some none else (Channel.ofCode c).map some

/-- The device a named channel must be read from (R21). -/
def Channel.device : Channel → Device
  | .prox => .proximity
  | _ => .inertial

def SampleRate.hz : SampleRate → Nat
  | .hz100 => 100
  | .hz250 => 250
  | .hz500 => 500
  | .hz1000 => 1000

/-- The tick period in µs (R24). -/
def SampleRate.period : SampleRate → Nat
  | .hz100 => 10000
  | .hz250 => 4000
  | .hz500 => 2000
  | .hz1000 => 1000

/-- The lower of two rates. -/
def SampleRate.min (a b : SampleRate) : SampleRate := if a.hz ≤ b.hz then a else b

/-- A rate in Hz rounded down to one of the four, below 100 taken as 100 (R23). -/
def SampleRate.roundDown (hz : Nat) : SampleRate :=
  if 1000 ≤ hz then .hz1000
  else if 500 ≤ hz then .hz500
  else if 250 ≤ hz then .hz250
  else .hz100

/-- The rate that is exactly one of the four (R124). -/
def SampleRate.exact : Nat → Option SampleRate
  | 100 => some .hz100
  | 250 => some .hz250
  | 500 => some .hz500
  | 1000 => some .hz1000
  | _ => none

def Presence.code : Presence → Nat
  | .active => 0
  | .still => 1
  | .removed => 2

def RateChannel.channel : RateChannel → Channel
  | .gx => .gx
  | .gy => .gy
  | .gz => .gz

def rateChannelOfCode : Nat → Option RateChannel
  | 0 => some .gx
  | 1 => some .gy
  | 2 => some .gz
  | _ => none

/-- The sign code of an axis: +1 is 0x01, −1 is 0xFF. -/
def AxisSource.signCode (a : AxisSource) : Nat := if a.negative then 0xFF else 0x01

def RefreshRate.hz : RefreshRate → Nat
  | .hz60 => 60
  | .hz72 => 72
  | .hz90 => 90
  | .hz120 => 120

/-- The refresh period in µs (5.2.1). -/
def RefreshRate.period : RefreshRate → Nat
  | .hz60 => 16667
  | .hz72 => 13889
  | .hz90 => 11111
  | .hz120 => 8333

def RefreshRate.ofHz : Nat → Option RefreshRate
  | 60 => some .hz60
  | 72 => some .hz72
  | 90 => some .hz90
  | 120 => some .hz120
  | _ => none

def SlotState.code : SlotState → Nat
  | .free => 0
  | .filling => 1
  | .complete => 2
  | .scanning => 3

/-- The panels a panel set code names (12.4). -/
def panelSetOfCode : Nat → Option (List Panel)
  | 1 => some [.left]
  | 2 => some [.right]
  | 3 => some [.left, .right]
  | _ => none

def PanelState.code : PanelState → Nat
  | .off => 0
  | .rampUp => 1
  | .standby => 2
  | .showing => 3
  | .rampDown => 4

def LongOp.code : LongOp → Nat
  | .none => 0
  | .on => 1
  | .off => 2

def PlayState.code : PlayState → Nat
  | .idle => 0
  | .waiting => 1
  | .playing => 2
  | .starved => 3

def ItemClass.code : ItemClass → Nat
  | .reply => 1
  | .report => 2
  | .motion => 3
  | .capture => 4

def LinkState.code : LinkState → Nat
  | .down => 0
  | .train => 1
  | .up => 2
  | .quiet => 3
  | .recover => 4

def LaneRate.code : LaneRate → Nat
  | .half => 1
  | .full => 2

/-- The code of a rate that may be NONE. -/
def rateCode : Option LaneRate → Nat
  | none => 0
  | some r => r.code

def Loopback.code : Loopback → Nat
  | .none => 0
  | .armed _ _ => 1
  | .running _ => 2

/-- A lane set: bit n set for lane Dn. -/
def laneSetCode (v : Vector Bool 4) : Nat :=
  v[0].toNat + 2 * v[1].toNat + 4 * v[2].toNat + 8 * v[3].toNat

def Destination.code : Destination → Nat
  | .control => 0
  | .time => 1
  | .pictureL => 2
  | .pictureR => 3
  | .audio => 4
  | .discard => 5

def destinationOfCode : Nat → Option Destination
  | 0 => some .control
  | 1 => some .time
  | 2 => some .pictureL
  | 3 => some .pictureR
  | 4 => some .audio
  | 5 => some .discard
  | _ => none

def StoreOp.code : StoreOp → Nat
  | .idle => 0
  | .loading _ => 1
  | .erasing _ _ => 2
  | .programming _ _ _ _ => 3

/-- The request kind codes of 12.5. -/
def requestKinds : List Byte :=
  [0x10, 0x11, 0x12, 0x13, 0x14, 0x20, 0x21, 0x22, 0x23, 0x24, 0x25, 0x26, 0x27, 0x30, 0x38, 0x39,
   0x40, 0x41, 0x42, 0x43, 0x44, 0x45, 0x46, 0x50, 0x51, 0x52, 0x53, 0x58, 0x59, 0x5A, 0x5B,
   0x60, 0x61, 0x62, 0x63, 0x64, 0x68, 0x69, 0x6A, 0x6B, 0x70, 0x71, 0x72, 0x73, 0x74, 0x75,
   0x78, 0x79, 0x7A, 0x7B, 0x7C, 0x7D]

/-- The code names a request kind (12.5). -/
def isRequestKind (k : Byte) : Bool := requestKinds.contains k

end Sys2Proof.Machine
end

