-- ==== Sys2Proof/Machine/Ops.lean ====
section
/-! DEFINITION. Operations shared by the blocks: the clocks, the store's memory, the Return Channel's
placement and arbitration, the Reply and Report Queues. -/

namespace Sys2Proof.Machine

/-! ## Clocks (R1, log entries 2 and 4) -/

/-- Oscillator counts in `n` µs. -/
def us (n : Nat) : Nat := n * 750

/-- Oscillator counts in `n` ms. -/
def ms (n : Nat) : Nat := n * 750000

/-- Oscillator counts of one frame of the Serial Audio Port, 1/48 ms (6.1). -/
def audioFrame : Nat := 15625

/-- Oscillator counts that `n` bytes occupy U0, n × 8 / 250 µs (R138). -/
def laneTime (n : Nat) : Nat := n * 24

/-- Time passes until the oscillator counts `t`, not at all if it already has. Tether Time counts the
whole microseconds that pass (R1). -/
def State.advanceTo (s : State) (t : Nat) : State :=
  { s with
    osc := max s.osc t
    tas := { s.tas with now := s.tas.now + BitVec.ofNat 48 (max s.osc t / 750 - s.osc / 750) } }

/-- Time passes until Tether Time, counting, comes to `t`, not at all if `t` is not later. -/
def State.awaitTime (s : State) (t : Time) : State :=
  s.advanceTo (us (s.osc / 750 + (t.toNat - s.tas.now.toNat)))

/-- The next free byte, and the state that has used it (log entry 11). -/
def State.takeFree (s : State) : Byte × State :=
  (Config.freeByte s.freeIndex, s.setFree (s.freeIndex + 1))

/-- A step of the part: without power nothing happens (log entry 8). -/
def State.live (s : State) (f : State → State) : Host.Outcome State Fault Refusal :=
  .next (if s.powered then f s else s)

/-! ## Counters (00_scope.md 4.5) -/

/-- An event counter increased by one, holding at its maximum. -/
def satInc {w : Nat} (c : BitVec w) : BitVec w := if c = BitVec.allOnes w then c else c + 1

/-- An event counter increased `n` times. -/
def satAdd {w : Nat} (c : BitVec w) : Nat → BitVec w
  | 0 => c
  | n + 1 => satAdd (satInc c) n

/-! ## The Calibration Store's memory (R177) -/

/-- Bytes in a page. -/
def pageSize : Nat := 1024

/-- What an address that is not listed reads as: an erased byte (log entry 6). -/
def blankByte : Byte := 0xFF

/-- The byte at an address. -/
def storeRead : StoreMemory → Nat → Byte
  | [], _ => blankByte
  | (k, v) :: m, a => if k = a then v else storeRead m a

/-- The store with one byte written. -/
def storeWrite : StoreMemory → Nat → Byte → StoreMemory
  | [], a, b => if b = blankByte then [] else [(a, b)]
  | (k, v) :: m, a, b =>
    if k < a then (k, v) :: storeWrite m a b
    else
      let rest := if k = a then m else (k, v) :: m
      if b = blankByte then rest else (a, b) :: rest

/-- The store with a run of bytes written from an address up. -/
def storeWriteAll (m : StoreMemory) (a : Nat) : List Byte → StoreMemory
  | [] => m
  | b :: bs => storeWriteAll (storeWrite m a b) (a + 1) bs

/-- The store with a page erased. -/
def storeErase (m : StoreMemory) (page : Nat) : StoreMemory :=
  m.filter (fun c => decide (c.1 / pageSize ≠ page))

/-- A run of `n` bytes from an address up. -/
def storeBytes (m : StoreMemory) (a n : Nat) : List Byte :=
  (List.range n).map (fun i => storeRead m (a + i))

/-- The canonical form from address `lo` up: addresses rise and stay inside the eight pages, and no
entry is 0xFF. -/
def storeWfFrom : Nat → StoreMemory → Bool
  | _, [] => true
  | lo, (k, v) :: m => decide (lo ≤ k) && decide (k < 8 * pageSize) && decide (v ≠ blankByte) &&
      storeWfFrom (k + 1) m

/-- The canonical form. -/
def storeWf (m : StoreMemory) : Bool := storeWfFrom 0 m

/-! ## Upstream items (R154, R186) -/

def Item.itemClass : Item → ItemClass
  | .reply _ => .reply
  | .report _ => .report
  | .motion _ => .motion
  | .capture _ => .capture

/-- The class channel (R154). -/
def ItemClass.channel : ItemClass → Nat
  | .reply => 0x800
  | .report => 0x801
  | .motion => 0x802
  | .capture => 0x803

/-- The control message of a reply (R186, 12.2). -/
def Reply.message (r : Reply) : List Byte :=
  [2, r.kind, r.tag] ++ pack8 r.status.code ++ pack16 r.fields.length ++ r.fields

/-- The control message of a report: tag 0, status 0 (R186). -/
def Report.message (r : Report) : List Byte :=
  [3] ++ pack8 r.kind.code ++ [0, 0] ++ pack16 r.fields.length ++ r.fields

/-- The capture block payload (12.3). -/
def CaptureBlock.bytes (b : CaptureBlock) : List Byte :=
  pack16 b.number.toNat ++ packTime b.time ++ pack16 b.frames ++ pack8 b.channels ++
    (b.samples.map (fun w => pack16 w.toNat)).flatten

def Item.payload : Item → List Byte
  | .reply r => r.message
  | .report r => r.message
  | .motion p => p
  | .capture b => b.bytes

/-- The upstream frame of an item (R186). -/
def Item.frame (i : Item) : List Byte := tetherFrame i.itemClass.channel i.payload

/-! ## Transmit slots (R155, R156) -/

/-- The item in a slot. -/
def TxSlot.item : TxSlot → Option Item
  | .empty => none
  | .occupied i => some i
  | .transmitting i => some i

/-- Most slots a class may hold (9.3.1). -/
def ItemClass.limit : ItemClass → Nat
  | .reply => 2
  | .motion => 1
  | .capture => 2
  | .report => 2

/-- The slots that hold a class. -/
def Rch.holding (r : Rch) (c : ItemClass) : Nat :=
  r.slots.toList.countP (fun t => decide (t.item.map Item.itemClass = some c))

/-- U0 runs: the link is in TRAIN, UP, QUIET or RECOVER (R130, R156). -/
def State.laneOpen (s : State) : Bool := decide (s.lnk.state ≠ .down)

/-- The item at a class's waiting place (R154). -/
def State.waiting (s : State) : ItemClass → Option Item
  | .reply => s.mge.replies.head?.map .reply
  | .report => s.mge.reports.head?.map .report
  | .motion => s.rch.pendingMotion.map .motion
  | .capture => s.aud.captureQueue.head?.map .capture

/-- The waiting item of a class leaves its waiting place. -/
def State.dropWaiting (s : State) : ItemClass → State
  | .reply => s.setMge { s.mge with replies := s.mge.replies.tail }
  | .report => s.setMge { s.mge with reports := s.mge.reports.tail }
  | .motion => s.setRch { s.rch with pendingMotion := none }
  | .capture => s.setAud { s.aud with captureQueue := s.aud.captureQueue.tail }

/-- The class has a waiting item and is below its limit. -/
def State.placeable (s : State) (c : ItemClass) : Bool :=
  (s.waiting c).isSome && decide (s.rch.holding c < c.limit)

/-- The first element of least value. -/
def argMin {α : Type} (f : α → Nat) : List α → Option α
  | [] => none
  | a :: l =>
    match argMin f l with
    | none => some a
    | some b => if f b < f a then some b else some a

/-- The class a fill takes next: lowest priority value, ties in the order REPLY, MOTION, CAPTURE,
REPORT (R156). -/
def State.nextClass (s : State) : Option ItemClass :=
  argMin s.rch.priority.get ([ItemClass.reply, .motion, .capture, .report].filter s.placeable)

/-- The lowest-indexed EMPTY slot. -/
def Rch.emptySlot (r : Rch) : Option (Fin 4) :=
  [0, 1, 2, 3].find? (fun i : Fin 4 => decide (r.slots[i] = .empty))

/-- One placement of a fill, if one can be made (R156). -/
def State.placeOne (s : State) : Option State :=
  match s.rch.emptySlot, s.nextClass with
  | some i, some c =>
    (s.waiting c).map fun item =>
      let t := s.dropWaiting c
      t.setRch { t.rch with slots := t.rch.slots.set i (.occupied item) }
  | _, _ => none

/-- Up to `n` placements. -/
def State.placeUpTo : Nat → State → State
  | 0, s => s
  | n + 1, s =>
    match s.placeOne with
    | none => s
    | some t => placeUpTo n t

/-- A fill of the EMPTY slots (R156); four placements fill them all. -/
def State.fill (s : State) : State := if s.laneOpen then s.placeUpTo 4 else s

/-! ## Arbitration (R157, R162) -/

/-- Arbitration is suspended: a remote loopback is RUNNING (R162). -/
def Lnk.suspended (l : Lnk) : Bool :=
  match l.loopback with
  | .running _ => true
  | _ => false

/-- The OCCUPIED slot that wins the lane: lowest priority value, then lowest index (R157). -/
def Rch.winner (r : Rch) : Option (Fin 4 × Item) :=
  argMin (fun p : Fin 4 × Item => r.priority.get p.2.itemClass)
    (([0, 1, 2, 3] : List (Fin 4)).filterMap fun i =>
      match r.slots[i] with
      | .occupied item => some (i, item)
      | _ => none)

/-- The slot becomes TRANSMITTING and the link sends its item (R157, R138). -/
def State.grant (s : State) (i : Fin 4) (item : Item) : State :=
  (s.setRch { s.rch with slots := s.rch.slots.set i (.transmitting item) }).setLnk
    { s.lnk with u0 := .slot i item.frame (s.osc + laneTime (item.payload.length + 8)) }

/-- The arbitration made when the lane is free and a slot is OCCUPIED (R157). -/
def State.arbitrate (s : State) : State :=
  if s.laneOpen && decide (s.lnk.u0 = .idle) && !s.lnk.suspended then
    match s.rch.winner with
    | some (i, item) => s.grant i item
    | none => s
  else s

/-- What an arrival at a waiting place leads to: a fill, and an arbitration if the lane is free (R156, R157).
Where one step forms several items no rule says that they arrive together: the model takes each arrival as it
is formed, and not all by one fill at the step's end (log entry 47, DESIGN CHOICE). -/
def State.place (s : State) : State := s.fill.arbitrate

/-! ## Replies and reports (R168) -/

/-- A reply is formed and joins the tail of the Reply Queue (R166). -/
def State.formReply (s : State) (kind tag : Byte) (status : Status) (fields : List Byte) : State :=
  (s.setMge { s.mge with
    replies := s.mge.replies ++ [⟨s.mge.nextSerial, kind, tag, status, fields⟩]
    nextSerial := s.mge.nextSerial + 1 }).place

/-- The oldest report leaves a full Report Queue unsent: it is counted, and attention is no longer
outstanding if it was the outstanding Attention report (R168, R170, log entry 22). -/
def Mge.makeRoom (m : Mge) : Mge :=
  if m.reports.length < 8 then m
  else
    { m with
      reports := m.reports.tail
      reportDrops := satInc m.reportDrops
      outstanding := m.outstanding &&
        !(decide (m.reports.head?.map Report.kind = some .attention) &&
          m.reports.tail.all (fun r => decide (r.kind ≠ .attention))) }

/-- A report is handed to the Report Queue (R168). -/
def State.handReport (s : State) (kind : ReportKind) (fields : List Byte) : State :=
  (s.setMge { s.mge.makeRoom with
    reports := s.mge.makeRoom.reports ++ [⟨kind, fields⟩] }).place

/-- A report whose enable is on is formed and handed over (R169). -/
def State.reportIf (s : State) (enabled : Bool) (kind : ReportKind) (fields : List Byte) : State :=
  if enabled then s.handReport kind fields else s

end Sys2Proof.Machine
end

