-- ==== Sys2Proof/Machine/Flags.lean ====
section
/-! DEFINITION. The Status Summary and the attention it raises (R170), and the figures that several
blocks work out from one another's state: caps, rates and attenuation in force. -/

namespace Sys2Proof.Machine

/-! ## Status Summary bits (12.4) -/

def bitLink : BitVec 8 := 0x01
def bitPicture : BitVec 8 := 0x02
def bitMotion : BitVec 8 := 0x04
def bitAudio : BitVec 8 := 0x08
def bitPower : BitVec 8 := 0x10
def bitTime : BitVec 8 := 0x20
def bitStore : BitVec 8 := 0x40
def bitMsg : BitVec 8 := 0x80

/-- Summary bits are set in one event, and an Attention report is raised if one of them was 0 with its
mask bit set while attention was not outstanding (R170, R175). -/
def State.setSummary (s : State) (bits : BitVec 8) : State :=
  let m := { s.mge with summary := s.mge.summary ||| bits }
  if bits &&& ~~~s.mge.summary &&& m.mask ≠ 0 ∧ m.outstanding = false then
    let room := m.makeRoom
    (s.setMge { room with
      outstanding := true
      reports := room.reports ++ [⟨.attention, pack8 m.summary.toNat ++ packTime s.tas.now⟩] }).place
  else s.setMge m

/-! ## Figures in force -/

/-- The Throttle Table row of the stage in force (R123). -/
def Pmg.row (p : Pmg) : ThrottleRow := p.rows[p.stage]

/-- The presence cap (R126). -/
def State.presenceCap (s : State) : Nat :=
  match s.smp.presence with
  | .active => 1023
  | .still => s.pmg.stillEmission
  | .removed => 0

/-- The emission cap in force (R126). -/
def State.emissionCap (s : State) : Nat := min s.pmg.row.emissionCap s.presenceCap

/-- The sampling rate in force (R24). -/
def State.rateInForce (s : State) : SampleRate :=
  (s.smp.requestedRate.min s.pmg.row.maxRate).min
    (if s.smp.presence = .still then .hz100 else .hz1000)

/-- The attenuation in force (R105). -/
def State.attenuation (s : State) : Nat :=
  max (max s.aud.requestedAtt s.pmg.row.minAttenuation)
    (if s.smp.presence = .removed then 255 else 0)

/-- A panel lowered to an emission cap that lies below its applied emission (R93). -/
def PanelCtl.capTo (p : PanelCtl) (cap : Nat) : PanelCtl := { p with applied := min p.applied cap }

/-- The emission cap in force is worked out again and handed to the Scan-Out, which lowers an applied
emission above it at once (R93, R126). -/
def State.updateCap (s : State) : State :=
  s.setSco { s.sco with
    panels := ⟨s.sco.panels.left.capTo s.emissionCap, s.sco.panels.right.capTo s.emissionCap⟩ }

end Sys2Proof.Machine
end

