-- ==== Sys2Proof/Machine/Routing.lean ====
section
/-! DEFINITION. Routing of good downstream frames by the Channel Filter (R137, R150). -/

namespace Sys2Proof.Machine

/-- The entry matches the channel: it is enabled and agrees in every bit of its mask (R150). -/
def FilterEntry.hits? (e : FilterEntry) (channel : BitVec 12) : Bool :=
  e.enabled && decide (channel &&& e.mask = e.value &&& e.mask)

/-- The lowest-indexed entry that matches (R150). -/
def Cfl.route (c : Cfl) (channel : BitVec 12) : Option (Fin 8) :=
  ([0, 1, 2, 3, 4, 5, 6, 7] : List (Fin 8)).find? (fun i => c.entries[i].hits? channel)

/-- The filter after routing a frame, and the frame's destination (R150). -/
def Cfl.take (c : Cfl) (channel : BitVec 12) : Cfl × Destination :=
  match c.route channel with
  | none => ({ c with unmatched := satInc c.unmatched }, .discard)
  | some i =>
    let e := c.entries[i]
    ({ c with entries := c.entries.set i { e with hits := satInc e.hits } }, e.dest)

/-- A good frame is counted (R137). -/
def Lnk.countGood (l : Lnk) : Lnk :=
  { l with counters := { l.counters with good := satInc l.counters.good } }

/-- A good frame is counted and routed (R137, R150). -/
def State.routed (s : State) (channel : BitVec 12) : State :=
  (s.setLnk s.lnk.countGood).setCfl (s.cfl.take channel).1

/-- The lowest of the channels from `c` up, `n` of them, that the filter routes to CONTROL. -/
def Cfl.controlFrom (f : Cfl) : Nat → BitVec 12 → Option (BitVec 12)
  | 0, _ => none
  | n + 1, c => if (f.take c).2 = .control then some c else controlFrom f n (c + 1)

/-- The lowest channel that the filter routes to CONTROL, if one is. -/
def Cfl.controlChannel (f : Cfl) : Option (BitVec 12) := f.controlFrom 4096 0

end Sys2Proof.Machine
end

