-- ==== Sys2Proof/Machine/Requests.lean ====
section
/-! DEFINITION. Admission and dispatch of requests (R165 to R167), shared by every request row. -/

namespace Sys2Proof.Machine

/-- What an owner answers: a status, result fields, and the state it leaves. -/
structure Answer where
  status : Status
  fields : List Byte
  state : State

/-- A refusal that changes nothing and carries no result fields (R166). -/
def State.refuse (s : State) (status : Status) : Answer := ⟨status, [], s⟩

/-- Steps 3 and 4 of admission: overrun, or the tail of the Request Queue (R165). -/
def State.enqueue (s : State) (r : Request) : State :=
  if 8 ≤ s.mge.admitted then
    (s.setMge { s.mge with overruns := satInc s.mge.overruns }).setSummary bitMsg
  else
    s.setMge { s.mge with requests := s.mge.requests ++ [r], admitted := s.mge.admitted + 1 }

/-- A control message is judged at its arrival (R165, 12.2). -/
def State.controlMessage (s : State) (payload : List Byte) : State :=
  if payload.length < 6 ∨ field payload 4 2 ≠ payload.length - 6 then
    s.setMge { s.mge with malformed := satInc s.mge.malformed }
  else if field payload 0 1 ≠ 1 then
    s.setMge { s.mge with protocolErrors := satInc s.mge.protocolErrors }
  else
    s.enqueue ⟨payload.getD 1 0, payload.getD 2 0, payload.drop 6⟩

/-- The control message of a request (12.2). -/
def Request.message (r : Request) : List Byte :=
  [1, r.kind, r.tag, 0] ++ pack16 r.params.length ++ r.params

/-- A request given with its own row arrives if it does not already stand at the head of the Request Queue:
as a good frame on the lowest channel that the Channel Filter routes to CONTROL, in UP with no loopback
RUNNING. Where no channel leads to CONTROL, or the message fits no frame, it does not arrive (log entry 5). -/
def State.bring (s : State) (r : Request) : State :=
  if s.mge.requests.head? = some r then s
  else if s.lnk.state = .up ∧ s.lnk.suspended = false ∧ r.message.length ≤ maxPayload then
    match s.cfl.controlChannel with
    | none => s
    | some c => (s.routed c).controlMessage r.message
  else s

/-- The request at the head of the Request Queue leaves it. -/
def State.popRequest (s : State) : State :=
  s.setMge { s.mge with requests := s.mge.requests.tail }

/-- Dispatch of a request: it leaves the head of the Request Queue and its owner acts on it (R166). -/
def State.dispatch (s : State) (r : Request) (owner : State → State) : State :=
  if (s.bring r).mge.requests.head? = some r then owner (s.bring r).popRequest else s.bring r

/-- The reply of an immediate kind, or of a refused long kind, formed at dispatch (R166). -/
def Answer.reply (a : Answer) (kind tag : Byte) : State :=
  a.state.formReply kind tag a.status a.fields

/-- A row that is the dispatch of an immediate kind. -/
def State.immediate (s : State) (kind tag : Byte) (ps : List Byte)
    (owner : List Byte → State → Answer) : Host.Outcome State Fault Refusal :=
  s.live fun s => s.dispatch ⟨kind, tag, ps⟩ fun t => (owner ps t).reply kind tag

/-- What the owner of a long kind does at dispatch (R167). -/
inductive LongAnswer where
  | answered (a : Answer)
  | started (resource : Resource) (state : State)

/-- A long kind's request is answered, or joins the in-progress set (R167). -/
def LongAnswer.settle (a : LongAnswer) (kind tag : Byte) : State :=
  match a with
  | .answered a => a.reply kind tag
  | .started resource t =>
    t.setMge { t.mge with inProgress := t.mge.inProgress ++ [⟨kind, tag, resource⟩] }

/-- A row that is the dispatch of a long kind. -/
def State.long (s : State) (kind tag : Byte) (ps : List Byte)
    (owner : List Byte → State → LongAnswer) : Host.Outcome State Fault Refusal :=
  s.live fun s => s.dispatch ⟨kind, tag, ps⟩ fun t => (owner ps t).settle kind tag

/-- Requests in progress that hold a resource leave the in-progress set, each with its reply (R167). Where one
event ends two of them, no rule orders their replies: the model forms them in the order in which the requests
were dispatched (log entry 45, DESIGN CHOICE). -/
def State.finish (s : State) (holds : InProgress → Bool) (status : Status)
    (fields : InProgress → State → List Byte) : State :=
  (s.mge.inProgress.filter holds).foldl
    (fun t p => t.formReply p.kind p.tag status (fields p t))
    (s.setMge { s.mge with inProgress := s.mge.inProgress.filter (fun p => !holds p) })

end Sys2Proof.Machine
end

