-- ==== Sys2Proof/Machine/Orientation.lean ====
section
/-! DEFINITION. The Orientation Integrator (chapter 3): integration, Pose History, pose lookup, Read
Orientation. -/

namespace Sys2Proof.Machine

/-- A difference of two Tether Time values, signed 48-bit (00_scope.md 4.4). -/
def timeDiff (a b : Time) : Int := (a - b).toInt

/-- A collection of at most 64 in order: the oldest leaves a full one (R31, R46). -/
def push64 {α : Type} (l : List α) (a : α) : List α :=
  (if l.length < 64 then l else l.tail) ++ [a]

/-- The interval of a sample, and whether it was clamped (R43). -/
def Ori.interval (o : Ori) (t : Time) : Nat × Bool :=
  match o.previousTime with
  | none => (0, false)
  | some p =>
    let raw := timeDiff t p
    ((clampInt 1 10000 raw).toNat, decide (raw < 1 ∨ 10000 < raw))

/-- The axis rate c of an angle and its zeroed flag (R44). -/
def AxisSource.rate (a : AxisSource) (r : SampleRecord) : Int × Bool :=
  match r.values.get a.source.channel with
  | none => (0, true)
  | some v => if v.stale then (0, true) else (if a.negative then -v.value else v.value, false)

/-- An accumulator after the increment c × interval, modulo 2³² (R42, R45). -/
def addAngle (acc : Angle) (c : Int) (interval : Nat) : Angle :=
  acc + BitVec.ofInt 32 (c * interval)

/-- The Integrator takes a completed record: increments, Pose History entry, previous sample time
(R43 to R46); `wrapped` empties the history first (R48). -/
def Ori.integrate (o : Ori) (r : SampleRecord) (wrapped : Bool) : Ori :=
  let iv := o.interval r.time
  let y := o.axisMap.yaw.rate r
  let p := o.axisMap.pitch.rate r
  let l := o.axisMap.roll.rate r
  let yaw := addAngle o.yaw y.1 iv.1
  let pitch := addAngle o.pitch p.1 iv.1
  let roll := addAngle o.roll l.1 iv.1
  { o with
    yaw := yaw
    pitch := pitch
    roll := roll
    previousTime := some r.time
    history := push64 (if wrapped then [] else o.history)
      ⟨r.seq, r.time, yaw, pitch, roll, min y.1 32767, min p.1 32767, iv.1, y.2, p.2, l.2⟩
    intervalClamps := if iv.2 then satInc o.intervalClamps else o.intervalClamps }

/-- Why a pose lookup is STALE (R49). -/
inductive StaleReason where
  | missing | aged
  deriving DecidableEq, Repr

/-- The result of a pose lookup (R49, R50). -/
inductive Lookup where
  | stale (reason : StaleReason)
  | valid (deltaYaw deltaPitch : Int) (newest : Time) (yawRate pitchRate : Int)
  deriving DecidableEq, Repr

/-- A pose lookup and the counts it leaves (R49, R50). -/
def Ori.lookup (o : Ori) (tag : Seq) (query : Time) : Lookup × Ori :=
  let o := { o with lookups := satInc o.lookups }
  match o.history.find? (fun e => decide (e.seq = tag)), o.history.getLast? with
  | some e, some n =>
    if 60000 < timeDiff query e.time then (.stale .aged, { o with aged := satInc o.aged })
    else (.valid (n.yaw - e.yaw).toInt (n.pitch - e.pitch).toInt n.time n.yawRate n.pitchRate, o)
  | _, _ => (.stale .missing, { o with missing := satInc o.missing })

/-- The counters of the Integrator set to 0 (R52, R53). -/
def Ori.clearCounters (o : Ori) : Ori :=
  { o with intervalClamps := 0, lookups := 0, missing := 0, aged := 0 }

/-- Function Clear MOTION at the Integrator (R53). -/
def Ori.clearMotion (o : Ori) : Ori :=
  { o with yaw := 0, pitch := 0, roll := 0, previousTime := none, history := [] }

/-- Hub Reset at the Integrator: the axis map waits for the load (R53, R178). -/
def Ori.hubReset (o : Ori) : Ori := { Ori.reset with axisMap := o.axisMap }

/-- The oldest sequence number held, 0 when there is none (R47). -/
def oldestSeq (l : List Seq) : Nat := (l.head?.getD 0).toNat

/-- The newest sequence number held, 0 when there is none (R47). -/
def newestSeq (l : List Seq) : Nat := (l.getLast?.getD 0).toNat

/-- The fields of the newest entry in Read Orientation, all 0 when there is none (R52). -/
def poseFields : Option PoseEntry → List Byte
  | none => List.replicate 32 0
  | some e =>
    [1] ++ pack32 e.seq.toNat ++ packTime e.time ++ pack32 e.yaw.toNat ++ pack32 e.pitch.toNat ++
      pack32 e.roll.toNat ++ packS16 e.yawRate ++ packS16 e.pitchRate ++ pack16 e.interval ++
      packFlag e.yawZeroed ++ packFlag e.pitchZeroed ++ packFlag e.rollZeroed

/-- An axis map entry in Read Orientation (R52). -/
def AxisSource.fields (a : AxisSource) : List Byte :=
  pack8 a.source.channel.code ++ pack8 a.signCode

/-- The reply fields of Read Orientation (R52). -/
def State.orientationFields (s : State) : List Byte :=
  let o := s.ori
  packTime s.tas.now ++ poseFields o.history.getLast? ++ o.axisMap.yaw.fields ++
    o.axisMap.pitch.fields ++ o.axisMap.roll.fields ++
    pack32 (oldestSeq (o.history.map PoseEntry.seq)) ++
    pack32 (newestSeq (o.history.map PoseEntry.seq)) ++ packCount o.intervalClamps ++
    packCount o.lookups ++ packCount o.missing ++ packCount o.aged

/-- Read Orientation (R52). -/
def readOrientation (ps : List Byte) (s : State) : Answer :=
  if ps.length ≠ 1 then s.refuse .length
  else
    ⟨.done, s.orientationFields, if flagField ps 0 then s.setOri s.ori.clearCounters else s⟩

/-- READ_ORIENTATION (R52). -/
def execReadOrientation (tag : Byte) (ps : List Byte) (s : State) :
    Host.Outcome State Fault Refusal := s.immediate 0x30 tag ps readOrientation

end Sys2Proof.Machine
end

