-- ==== Sys2Proof/Machine/Picture.lean ====
section
/-! DEFINITION. The Frame Intake (chapter 4): display mode, frame slots, picture messages, refresh
selection, its requests. -/

namespace Sys2Proof.Machine

/-! ## Display mode (R54) -/

def DisplayMode.width (m : DisplayMode) : Nat := 1600 + 2 * m.gh
def DisplayMode.height (m : DisplayMode) : Nat := 1600 + 2 * m.gv
def DisplayMode.lineLength (m : DisplayMode) : Nat := m.width * 3

/-! ## Slots (R57 to R60) -/

/-- A slot becomes FREE; its lines stay in stacked DRAM (R57). -/
def FrameSlot.release (f : FrameSlot) : FrameSlot := { f with state := .free, nextLine := 0 }

/-- Of two completion orders, the first is the older (R60). -/
def olderOrder (a b : BitVec 32) : Bool := decide ((b - a).toNat < 2147483648)

/-- The indices of an eye's slots in a state, lowest first. -/
def Eye.inState (e : Eye) (st : SlotState) : List (Fin 3) :=
  ([0, 1, 2] : List (Fin 3)).filter (fun i => decide (e.slots[i].state = st))

/-- The eye's FILLING slot. -/
def Eye.filling (e : Eye) : Option (Fin 3) := (e.inState .filling).head?

/-- Of two COMPLETE slots, the older. -/
def Eye.older (e : Eye) (i j : Fin 3) : Fin 3 :=
  if olderOrder e.slots[i].order e.slots[j].order then i else j

/-- Of two COMPLETE slots, the newer. -/
def Eye.newer (e : Eye) (i j : Fin 3) : Fin 3 :=
  if olderOrder e.slots[i].order e.slots[j].order then j else i

/-- The oldest COMPLETE slot (R60). -/
def Eye.oldestComplete (e : Eye) : Option (Fin 3) :=
  match e.inState .complete with
  | [] => none
  | i :: l => some (l.foldl e.older i)

/-- The newest COMPLETE slot (R60). -/
def Eye.newestComplete (e : Eye) : Option (Fin 3) :=
  match e.inState .complete with
  | [] => none
  | i :: l => some (l.foldl e.newer i)

/-- One slot becomes FREE. -/
def Eye.freeSlot (e : Eye) (i : Fin 3) : Eye :=
  { e with slots := e.slots.set i e.slots[i].release }

/-- Every slot in one of the states given becomes FREE. -/
def Eye.freeStates (e : Eye) (sts : List SlotState) : Eye :=
  { e with slots := e.slots.map (fun f => if sts.contains f.state then f.release else f) }

/-- Tearing of the slot that is FILLING (R65). -/
def Eye.tear (e : Eye) (i : Fin 3) : Eye :=
  { e.freeSlot i with counters := { e.counters with torn := satInc e.counters.torn } }

/-- The slot a Frame Header takes, FREE or reclaimed, and the eye before it is opened (R59). -/
def Eye.takeSlot (e : Eye) : Option (Fin 3 × Eye) :=
  match (e.inState .free).head? with
  | some i => some (i, e)
  | none =>
    e.oldestComplete.map fun i =>
      (i, { e.freeSlot i with
        counters := { e.counters with dropped := satInc e.counters.dropped } })

/-- A Frame Header at its eye, and whether it tore a frame (R59). The lines that DRAM holds of the slot stay
until this frame's overwrite them (R57). -/
def Eye.header (e : Eye) (frame : BitVec 16) (tag : Seq) (noShift : Bool) : Eye × Bool :=
  let torn := match e.filling with
    | some i => e.tear i
    | none => e
  match torn.takeSlot with
  | none => (torn, e.filling.isSome)
  | some (i, f) =>
    let opened := { f.slots[i] with
      state := .filling, frame := frame, tag := tag, noShift := noShift, nextLine := 0 }
    ({ f with slots := f.slots.set i opened }, e.filling.isSome)

/-! ## Slices (R61 to R64) -/

/-- `k` runs of `n` bytes. -/
def splitLines (n : Nat) : Nat → List Byte → List (List Byte)
  | 0, _ => []
  | k + 1, bs => bs.take n :: splitLines n k (bs.drop n)

/-- A slice as its header gives it (12.3). -/
structure Slice where
  frame : BitVec 16
  first : Nat
  count : Nat
  pixels : List Byte
  deriving DecidableEq, Repr

/-- The slice does not fit the frame: a gap, a bad line count, lines past the height, or the wrong
number of pixel bytes (R63). -/
def Slice.tears (sl : Slice) (m : DisplayMode) (next : Nat) : Bool :=
  decide (next < sl.first) || decide (sl.count = 0) || decide (4 < sl.count) ||
    decide (m.height < sl.first + sl.count) ||
    decide (sl.pixels.length ≠ sl.count * m.lineLength)

/-- The FILLING slot with the slice's lines written at its next line and after, over what stood there
(R57, R64). -/
def FrameSlot.store (f : FrameSlot) (m : DisplayMode) (sl : Slice) : FrameSlot :=
  { f with
    lines := f.lines.take f.nextLine ++ splitLines m.lineLength sl.count sl.pixels ++
      f.lines.drop (f.nextLine + sl.count)
    nextLine := f.nextLine + sl.count }

/-- A slot that has all its lines becomes COMPLETE (R60, R64). -/
def Eye.complete (e : Eye) (i : Fin 3) : Eye :=
  { slots := e.slots.set i { e.slots[i] with state := .complete, order := e.completions }
    completions := e.completions + 1
    counters := { e.counters with completed := satInc e.counters.completed } }

/-- A slice at its eye, and whether it tore the frame (R61 to R64). -/
def Eye.slice (e : Eye) (m : DisplayMode) (sl : Slice) : Eye × Bool :=
  match e.filling with
  | none => ({ e with counters := { e.counters with orphan := satInc e.counters.orphan } }, false)
  | some i =>
    let f := e.slots[i]
    if sl.frame ≠ f.frame then
      ({ e with counters := { e.counters with orphan := satInc e.counters.orphan } }, false)
    else if sl.first < f.nextLine then
      ({ e with counters := { e.counters with duplicate := satInc e.counters.duplicate } }, false)
    else if sl.tears m f.nextLine then (e.tear i, true)
    else
      let g := f.store m sl
      let e' := { e with slots := e.slots.set i g }
      (if g.nextLine = m.height then e'.complete i else e', false)

/-! ## Picture message arrival (R58) -/

/-- A picture message at its eye, and whether it tore a frame. -/
def Eye.message (e : Eye) (mode : Option DisplayMode) (payload : List Byte) : Eye × Bool :=
  match mode with
  | none => ({ e with counters := { e.counters with unmoded := satInc e.counters.unmoded } }, false)
  | some m =>
    if field payload 0 1 = 1 ∧ payload.length = 8 then
      e.header (BitVec.ofNat 16 (field payload 1 2)) (BitVec.ofNat 32 (field payload 3 4))
        ((payload.getD 7 0).getLsbD 0)
    else if field payload 0 1 = 2 ∧ 6 ≤ payload.length then
      e.slice m ⟨BitVec.ofNat 16 (field payload 1 2), field payload 3 2, field payload 5 1,
        payload.drop 6⟩
    else
      ({ e with counters := { e.counters with malformed := satInc e.counters.malformed } }, false)

/-- A picture message is taken for its eye; a torn frame sets PICTURE (R58, R65). -/
def State.pictureMessage (s : State) (p : Panel) (payload : List Byte) : State :=
  let r := (s.fri.eyes.get p).message s.fri.mode payload
  let t := s.setFri { s.fri with eyes := s.fri.eyes.set p r.1 }
  if r.2 then t.setSummary bitPicture else t

/-! ## Refresh selection (R66, R67) -/

/-- What a refresh selection answers. -/
inductive Selection where
  | fresh (frame : BitVec 16) (tag : Seq) (noShift : Bool)
  | again (frame : BitVec 16) (tag : Seq) (noShift : Bool)
  | nothing
  deriving DecidableEq, Repr

/-- A refresh selection at an eye. -/
def Eye.select (e : Eye) : Selection × Eye :=
  match e.newestComplete with
  | some i =>
    let f := e.slots[i]
    let dropped := (e.inState .complete).length - 1
    let cleared := e.freeStates [.scanning, .complete]
    (.fresh f.frame f.tag f.noShift,
      { cleared with
        slots := cleared.slots.set i { f with state := .scanning }
        counters := { e.counters with dropped := satAdd e.counters.dropped dropped } })
  | none =>
    match (e.inState .scanning).head? with
    | some i =>
      let f := e.slots[i]
      (.again f.frame f.tag f.noShift,
        { e with counters := { e.counters with repeated := satInc e.counters.repeated } })
    | none =>
      (.nothing, { e with counters := { e.counters with blank := satInc e.counters.blank } })

/-! ## Link DOWN, clears and resets (R70, R71, R74) -/

/-- The eye's FILLING slot, if there is one, is torn at link DOWN (R70). -/
def Eye.linkDown (e : Eye) : Eye :=
  match e.filling with
  | some i => e.tear i
  | none => e

/-- Function Clear PICTURE at an eye (R71). -/
def Eye.clearPicture (e : Eye) : Eye :=
  { e.freeStates [.filling, .complete] with completions := 0 }

/-- The counters of an eye set to 0 (R72). -/
def Eye.clearCounters (e : Eye) : Eye := { e with counters := ⟨0, 0, 0, 0, 0, 0, 0, 0, 0⟩ }

/-- Every slot becomes FREE and the completion counter 0 (R55). -/
def Eye.newMode (e : Eye) : Eye :=
  { e with slots := e.slots.map FrameSlot.release, completions := 0 }

/-- Hub Reset at an eye: its power-on values, the lines in DRAM standing as they are (R57, R74). -/
def Eye.hubReset (e : Eye) : Eye :=
  { Eye.reset with slots := e.slots.map fun f => { FrameSlot.freed with lines := f.lines } }

/-- A function applied to both eyes. -/
def Fri.mapEyes (f : Fri) (g : Eye → Eye) : Fri := { f with eyes := ⟨g f.eyes.left, g f.eyes.right⟩ }

/-- Hub Reset at the Frame Intake: no display mode (R54, R74). -/
def Fri.hubReset (f : Fri) : Fri := { f.mapEyes Eye.hubReset with mode := none }

/-! ## Requests -/

/-- The record a Set Display Mode asks for, if its values are in range (R55). -/
def displayModeOf (ps : List Byte) : Option DisplayMode :=
  let gh := field ps 1 1
  let gv := field ps 2 1
  if gh % 2 = 0 ∧ gh ≤ 128 ∧ gv % 2 = 0 ∧ gv ≤ 128 ∧ field ps 3 1 = 0 then
    (RefreshRate.ofHz (field ps 0 1)).map (fun r => ⟨r, gh, gv⟩)
  else none

/-- A panel is in state SHOWING. -/
def Sco.anyShowing (c : Sco) : Bool :=
  decide (c.panels.left.state = .showing) || decide (c.panels.right.state = .showing)

/-- Set Display Mode, as a host request or a fired action (R55). -/
def setDisplayMode (ps : List Byte) (s : State) : Answer :=
  if ps.length ≠ 4 then s.refuse .length
  else
    match displayModeOf ps with
    | none => s.refuse .range
    | some m =>
      if s.sco.anyShowing then s.refuse .state
      else
        ⟨.done,
          pack8 m.rate.hz ++ pack8 m.gh ++ pack8 m.gv ++ pack8 0 ++ pack16 m.width ++
            pack16 m.height ++ pack16 m.lineLength,
          s.setFri { s.fri.mapEyes Eye.newMode with mode := some m }⟩

/-- SET_DISPLAY_MODE (R55). -/
def execSetDisplayMode (tag : Byte) (ps : List Byte) (s : State) :
    Host.Outcome State Fault Refusal := s.immediate 0x38 tag ps setDisplayMode

/-- A slot in Read Picture Status (R73). -/
def FrameSlot.fields (f : FrameSlot) : List Byte :=
  if f.state = .free then pack8 0 ++ pack16 0 ++ pack16 0
  else pack8 f.state.code ++ pack16 f.frame.toNat ++ pack16 f.nextLine

def PictureCounters.fields (c : PictureCounters) : List Byte :=
  packCount c.torn ++ packCount c.dropped ++ packCount c.repeated ++ packCount c.blank ++
    packCount c.orphan ++ packCount c.duplicate ++ packCount c.unmoded ++ packCount c.malformed ++
    packCount c.completed

def Eye.fields (e : Eye) : List Byte :=
  e.slots[0].fields ++ e.slots[1].fields ++ e.slots[2].fields ++ e.counters.fields

/-- The display mode fields of Read Picture Status, 0 while the record is invalid (R54, R73). -/
def modeFields : Option DisplayMode → List Byte
  | none => List.replicate 9 0
  | some m =>
    [1] ++ pack8 m.rate.hz ++ pack8 m.gh ++ pack8 m.gv ++ pack8 0 ++ pack16 m.width ++ pack16 m.height

/-- Read Picture Status (R73). -/
def readPictureStatus (ps : List Byte) (s : State) : Answer :=
  if ps.length ≠ 1 then s.refuse .length
  else
    ⟨.done, modeFields s.fri.mode ++ s.fri.eyes.left.fields ++ s.fri.eyes.right.fields,
      if flagField ps 0 then s.setFri (s.fri.mapEyes Eye.clearCounters) else s⟩

/-- READ_PICTURE_STATUS (R73). -/
def execReadPictureStatus (tag : Byte) (ps : List Byte) (s : State) :
    Host.Outcome State Fault Refusal := s.immediate 0x39 tag ps readPictureStatus

end Sys2Proof.Machine
end

