-- ==== Sys2Proof/Machine/ScanOut.lean ====
section
/-! DEFINITION. The Scan-Out (chapter 5): panel controllers, refresh timer, late shift, emission. -/

namespace Sys2Proof.Machine

/-! ## Panels (R75) -/

def State.panel (s : State) (p : Panel) : PanelCtl := s.sco.panels.get p

def State.setPanel (s : State) (p : Panel) (c : PanelCtl) : State :=
  s.setSco { s.sco with panels := s.sco.panels.set p c }

/-- A function applied to the panels named, in one event. -/
def State.updatePanels (s : State) (names : List Panel) (f : PanelCtl → PanelCtl) : State :=
  names.foldl (fun t p => t.setPanel p (f (t.panel p))) s

/-- The panel's rail enable line: on in every state except OFF (R75). -/
def PanelCtl.railEnable (c : PanelCtl) : Bool := decide (c.state ≠ .off)

/-- A panel in RAMP_UP or RAMP_DOWN. -/
def PanelCtl.ramping (c : PanelCtl) : Bool := decide (c.state = .rampUp) || decide (c.state = .rampDown)

/-- A panel that leaves SHOWING for `st`: dark, applied emission 0 at once (R79 to R81). -/
def PanelCtl.leave (c : PanelCtl) (st : PanelState) : PanelCtl :=
  { c with state := st, applied := 0, window := none }

/-- The refresh period of the display mode record in µs (R83). -/
def State.refreshPeriod (s : State) : Nat :=
  match s.fri.mode with
  | none => 0
  | some m => m.rate.period

/-! ## Late shift (R86 to R90) -/

/-- An angle and a scale turned into whole pixels, halves away from zero (R89). -/
def pixels (q : Int) : Int := q.sign * ((q.natAbs + 2048000000) / 4096000000 : Nat)

/-- The late shift of a panel at a refresh start. -/
structure Shift where
  sx : Int
  sy : Int
  stale : Bool
  clamped : Bool
  leadClamped : Bool
  deriving DecidableEq, Repr

/-- The lead before its clamp: target time minus newest sample time, signed 48-bit (R87). -/
def rawLead (m : DisplayMode) (g : Geometry) (start newest : Time) : Int :=
  timeDiff (start + BitVec.ofNat 48 (m.rate.period / 2 + g.latency)) newest

/-- The late shift from a pose lookup (R86 to R90). -/
def lateShift (m : DisplayMode) (g : Geometry) (start : Time) : Lookup → Shift
  | .stale _ => ⟨0, 0, true, false, false⟩
  | .valid deltaYaw deltaPitch newest yawRate pitchRate =>
    let raw := rawLead m g start newest
    let lead := clampInt 0 20000 raw
    let x := pixels ((deltaYaw + yawRate * lead) * g.ppdH)
    let y := pixels ((deltaPitch + pitchRate * lead) * g.ppdV)
    let sx := clampInt (-m.gh) m.gh x
    let sy := clampInt (-m.gv) m.gv y
    ⟨sx, sy, false, decide (sx ≠ x ∨ sy ≠ y), decide (raw < 0 ∨ 20000 < raw)⟩

/-- The counters of a panel after a late shift (R95). -/
def ScanCounters.count (c : ScanCounters) (h : Shift) : ScanCounters :=
  { c with
    stale := if h.stale then satInc c.stale else c.stale
    clamped := if h.clamped then satInc c.clamped else c.clamped
    leadClamped := if h.leadClamped then satInc c.leadClamped else c.leadClamped }

/-- A panel's entry in a Refresh report (R94). -/
def refreshEntry (selection frame : Nat) (sx sy : Int) (flags applied : Nat) : List Byte :=
  pack8 selection ++ pack16 frame ++ packS16 sx ++ packS16 sy ++ pack8 flags ++ pack16 applied

/-- The pose lookup of a frame shown with the late shift (R84 step 3); a NO_SHIFT frame makes none. -/
def State.shiftFor (s : State) (m : DisplayMode) (start : Time) (tag : Seq) (noShift : Bool) :
    Shift × State :=
  if noShift then (⟨0, 0, false, false, false⟩, s)
  else
    let r := s.ori.lookup tag start
    (lateShift m s.sco.geometry start r.1, s.setOri r.2)

/-- A panel shows a frame with its late shift: window, emission, counters, PICTURE (R84, R90, R93). -/
def State.showFrame (s : State) (p : Panel) (m : DisplayMode) (start : Time) (code : Nat)
    (frame : BitVec 16) (tag : Seq) (noShift : Bool) : State × List Byte :=
  let r := s.shiftFor m start tag noShift
  let h := r.1
  let t := r.2
  let c := t.panel p
  let applied := min c.requested t.emissionCap
  let u := t.setPanel p { c with
    applied := applied, sx := h.sx, sy := h.sy
    window := some ⟨(m.gh - h.sx).toNat, (m.gv - h.sy).toNat⟩
    counters := c.counters.count h }
  (if h.stale || h.clamped then u.setSummary bitPicture else u,
    refreshEntry code frame.toNat h.sx h.sy (h.stale.toNat + 2 * h.clamped.toNat + 4 * noShift.toNat)
      applied)

/-- A panel's work at a refresh start and its Refresh report entry (R84). -/
def State.refreshPanel (s : State) (start : Time) (p : Panel) : State × List Byte :=
  if (s.panel p).state = .showing then
    let r := (s.fri.eyes.get p).select
    let t := s.setFri { s.fri with eyes := s.fri.eyes.set p r.2 }
    match r.1, s.fri.mode with
    | .fresh frame tag ns, some m => t.showFrame p m start 1 frame tag ns
    | .again frame tag ns, some m => t.showFrame p m start 2 frame tag ns
    | _, _ =>
      (t.setPanel p { t.panel p with applied := 0, sx := 0, sy := 0, window := none },
        refreshEntry 3 0 0 0 0 0)
  else (s, refreshEntry 0 0 0 0 0 0)

/-- The Refresh report of a refresh start: its time, then the left panel's entry and the right one's (R94). -/
def refreshFields (start : Time) (p : Panel) (own other : List Byte) : List Byte :=
  packTime start ++ (match p with
    | .left => own ++ other
    | .right => other ++ own)

/-- The work still to be taken of the latest refresh start is done, and the start reported; a panel that has
left SHOWING takes no part (R84, R85, R94). -/
def State.finishRefresh (s : State) : State :=
  match s.sco.refreshing with
  | none => s
  | some r =>
    let w := (s.setSco { s.sco with refreshing := none }).refreshPanel r.start r.panel
    w.1.reportIf w.1.mge.enables.refresh .refresh (refreshFields r.start r.panel w.2 r.entry)

/-- The other panel. -/
def otherPanel : Panel → Panel
  | .left => .right
  | .right => .left

/-- A refresh start is delivered, due at oscillator count `due`, and one panel's work taken first. Where both
panels take part the other's work is an event of its own, still to be taken; where one of them is not
SHOWING there is no second work to part from the first, and the start is done at once (R83, R84, R85). -/
def State.beginRefresh (s : State) (p : Panel) (due : Nat) : State :=
  let start := s.tas.now
  let t := s.setSco { s.sco with
    latestRefresh := start, refreshDue := some (due + us s.refreshPeriod) }
  let w := t.refreshPanel start p
  let u := w.1.setSco { w.1.sco with refreshing := some ⟨start, otherPanel p, w.2⟩ }
  if (s.panel p).state = .showing ∧ (s.panel (otherPanel p)).state = .showing then u
  else u.finishRefresh

/-- A refresh start, due at oscillator count `due`, with the panels' work taken as its turn says (R84, log
entry 19). -/
def State.deliverRefresh (s : State) (due : Nat) : State :=
  let t := s.setTurns s.turns.tail
  match s.turns.headD .both with
  | .both => (t.beginRefresh .left due).finishRefresh
  | .only p => t.beginRefresh p due

/-- After panels have left SHOWING: the refresh timer stops when none is left, and a refresh start whose one
panel still to be taken has left is done (R83, R85). -/
def State.settleRefresh (s : State) : State :=
  let t := if s.sco.anyShowing then s else s.setSco { s.sco with refreshDue := none }
  match t.sco.refreshing with
  | none => t
  | some r => if (t.panel r.panel).state = .showing then t else t.finishRefresh

/-! ## Answers to panel requests (5.1.2) -/

/-- The panel set and both panel states, as every panel reply carries them (5.1.2). -/
def State.panelFields (s : State) (set : Byte) : List Byte :=
  [set] ++ pack8 (s.panel .left).state.code ++ pack8 (s.panel .right).state.code

/-- An answer to a panel request; a request without a panel set byte is answered with a free one
(log entry 11). -/
def State.panelAnswer (s : State) (status : Status) (ps : List Byte) : Answer :=
  match ps with
  | b :: _ => ⟨status, s.panelFields b, s⟩
  | [] => ⟨status, s.panelFields s.takeFree.1, s.takeFree.2⟩

/-- The panels a panel request names, or the status that refuses it (5.1.2). -/
def panelsNamed (ps : List Byte) : Except Status (List Panel) :=
  if ps.length ≠ 1 then .error .length
  else
    match panelSetOfCode (field ps 0 1) with
    | none => .error .range
    | some names => .ok names

/-! ## Panel requests -/

/-- Panels On (R76). -/
def panelsOn (ps : List Byte) (s : State) : LongAnswer :=
  match panelsNamed ps with
  | .error st => .answered (s.panelAnswer st ps)
  | .ok names =>
    if s.pmg.emergency then .answered (s.panelAnswer .state ps)
    else if names.any (fun p => (s.panel p).ramping) then .answered (s.panelAnswer .busy ps)
    else
      let moved := names.filter (fun p => decide ((s.panel p).state = .off))
      if moved.isEmpty then .answered (s.panelAnswer .done ps)
      else
        .started (.panels moved (ps.headD 0))
          (s.updatePanels moved fun c =>
            { c with state := .rampUp, rampEnd := s.osc + ms 12, longOp := .on })

/-- PANELS_ON (R76). -/
def execPanelsOn (tag : Byte) (ps : List Byte) (s : State) : Host.Outcome State Fault Refusal :=
  s.long 0x40 tag ps panelsOn

/-- Panels Off (R80). -/
def panelsOff (ps : List Byte) (s : State) : LongAnswer :=
  match panelsNamed ps with
  | .error st => .answered (s.panelAnswer st ps)
  | .ok names =>
    if names.any (fun p => (s.panel p).ramping) then .answered (s.panelAnswer .busy ps)
    else
      let moved := names.filter (fun p => decide ((s.panel p).state ≠ .off))
      if moved.isEmpty then .answered (s.panelAnswer .done ps)
      else
        .started (.panels moved (ps.headD 0))
          (s.updatePanels moved fun c =>
            { c.leave .rampDown with rampEnd := s.osc + ms 5, longOp := .off }).settleRefresh

/-- PANELS_OFF (R80). -/
def execPanelsOff (tag : Byte) (ps : List Byte) (s : State) : Host.Outcome State Fault Refusal :=
  s.long 0x41 tag ps panelsOff

/-- Panels Show, as a host request or a fired action: a stopped refresh timer starts with a refresh start at
that moment, in which the panels take part (R78, R83, R84). -/
def panelsShow (ps : List Byte) (s : State) : Answer :=
  match panelsNamed ps with
  | .error st => s.panelAnswer st ps
  | .ok names =>
    if s.fri.mode.isNone || names.any (fun p => decide ((s.panel p).state ≠ .standby)) then
      s.panelAnswer .state ps
    else
      let t := s.updatePanels names fun c => { c with state := .showing, applied := 0, window := none }
      (if s.sco.anyShowing then t else t.deliverRefresh s.osc).panelAnswer .done ps

/-- PANELS_SHOW (R78). -/
def execPanelsShow (tag : Byte) (ps : List Byte) (s : State) : Host.Outcome State Fault Refusal :=
  s.immediate 0x42 tag ps panelsShow

/-- Panels Standby, as a host request or a fired action (R79). -/
def panelsStandby (ps : List Byte) (s : State) : Answer :=
  match panelsNamed ps with
  | .error st => s.panelAnswer st ps
  | .ok names =>
    if names.any (fun p => decide ((s.panel p).state = .off) || (s.panel p).ramping) then
      s.panelAnswer .state ps
    else
      (s.updatePanels names fun c => c.leave .standby).settleRefresh.panelAnswer .done ps

/-- PANELS_STANDBY (R79). -/
def execPanelsStandby (tag : Byte) (ps : List Byte) (s : State) :
    Host.Outcome State Fault Refusal := s.immediate 0x43 tag ps panelsStandby

/-- Set Emission, as a host request or a fired action (R92). -/
def setEmission (ps : List Byte) (s : State) : Answer :=
  if ps.length ≠ 3 then s.refuse .length
  else
    match panelSetOfCode (field ps 0 1) with
    | none => s.refuse .range
    | some names =>
      let t := s.updatePanels names fun c => { c with requested := min (field ps 1 2) 1023 }
      ⟨.done, pack16 (t.panel .left).requested ++ pack16 (t.panel .right).requested, t⟩

/-- SET_EMISSION (R92). -/
def execSetEmission (tag : Byte) (ps : List Byte) (s : State) : Host.Outcome State Fault Refusal :=
  s.immediate 0x44 tag ps setEmission

/-- A geometry record with its values clamped into their ranges (R91). -/
def geometryOf (h v l : Nat) : Geometry := ⟨clampNat 256 16384 h, clampNat 256 16384 v, min l 5000⟩

def Geometry.fields (g : Geometry) : List Byte := pack16 g.ppdH ++ pack16 g.ppdV ++ pack16 g.latency

/-- Set Panel Geometry (R91). -/
def setPanelGeometry (ps : List Byte) (s : State) : Answer :=
  if ps.length ≠ 6 then s.refuse .length
  else
    let g := geometryOf (field ps 0 2) (field ps 2 2) (field ps 4 2)
    ⟨.done, g.fields, s.setSco { s.sco with geometry := g }⟩

/-- SET_PANEL_GEOMETRY (R91). -/
def execSetPanelGeometry (tag : Byte) (ps : List Byte) (s : State) :
    Host.Outcome State Fault Refusal := s.immediate 0x45 tag ps setPanelGeometry

/-- A panel in Read Scan Status (R96). -/
def PanelCtl.fields (c : PanelCtl) : List Byte :=
  pack8 c.state.code ++ packFlag c.railEnable ++ pack8 c.longOp.code ++ pack16 c.requested ++
    pack16 c.applied ++ packS16 c.sx ++ packS16 c.sy ++ packCount c.counters.stale ++
    packCount c.counters.clamped ++ packCount c.counters.leadClamped ++
    packCount c.counters.emergency

/-- The reply fields of Read Scan Status (R96). -/
def State.scanFields (s : State) : List Byte :=
  packFlag s.sco.refreshDue.isSome ++
    pack16 (if s.sco.refreshDue.isSome then s.refreshPeriod else 0) ++
    packTime s.sco.latestRefresh ++ s.sco.geometry.fields ++ pack16 s.emissionCap ++
    (s.panel .left).fields ++ (s.panel .right).fields

/-- The counters of a panel set to 0 (R95). -/
def PanelCtl.clearCounters (c : PanelCtl) : PanelCtl := { c with counters := ⟨0, 0, 0, 0⟩ }

/-- The eight scan counters set to 0 (R95). -/
def Sco.clearCounters (c : Sco) : Sco :=
  { c with panels := ⟨c.panels.left.clearCounters, c.panels.right.clearCounters⟩ }

/-- Read Scan Status (R96). -/
def readScanStatus (ps : List Byte) (s : State) : Answer :=
  if ps.length ≠ 1 then s.refuse .length
  else
    ⟨.done, s.scanFields, if flagField ps 0 then s.setSco s.sco.clearCounters else s⟩

/-- READ_SCAN_STATUS (R96). -/
def execReadScanStatus (tag : Byte) (ps : List Byte) (s : State) :
    Host.Outcome State Fault Refusal := s.immediate 0x46 tag ps readScanStatus

/-! ## Ramp ends (R75, R77, R80) -/

/-- The request in progress waits for this panel's ramp. -/
def InProgress.ramps (e : InProgress) (p : Panel) : Bool :=
  match e.resource with
  | .panels names _ => names.contains p
  | _ => false

/-- The request no longer waits for this panel. -/
def InProgress.unramp (e : InProgress) (p : Panel) : InProgress :=
  match e.resource with
  | .panels names set => { e with resource := .panels (names.filter (fun q => decide (q ≠ p))) set }
  | _ => e

/-- A panel request whose last ramp has ended. -/
def InProgress.rampsDone (e : InProgress) : Bool :=
  match e.resource with
  | .panels names _ => names.isEmpty
  | _ => false

/-- The panel set of a panel request in progress. -/
def InProgress.panelSet (e : InProgress) : Byte :=
  match e.resource with
  | .panels _ set => set
  | _ => 0

/-- The reply fields of a panel request that ends now. -/
def panelEndFields (e : InProgress) (s : State) : List Byte := s.panelFields e.panelSet

/-- A ramp of the panel ends: requests in progress stop waiting for it, and one that waits for no
panel any more is answered DONE (R77, R80). -/
def State.endRamp (s : State) (p : Panel) (st : PanelState) : State :=
  let t := s.setPanel p { s.panel p with state := st, longOp := .none }
  let u := t.setMge { t.mge with inProgress := t.mge.inProgress.map (fun e => e.unramp p) }
  u.finish InProgress.rampsDone .done panelEndFields

/-- RAMP_UP_END: a panel in RAMP_UP reaches STANDBY 12 ms after it entered (R75, R77). -/
def execRampUpEnd (p : Panel) (s : State) : Host.Outcome State Fault Refusal :=
  s.live fun s =>
    if (s.panel p).state = .rampUp then (s.advanceTo (s.panel p).rampEnd).endRamp p .standby else s

/-- RAMP_DOWN_END: a panel in RAMP_DOWN reaches OFF 5 ms after it entered (R75, R80). -/
def execRampDownEnd (p : Panel) (s : State) : Host.Outcome State Fault Refusal :=
  s.live fun s =>
    if (s.panel p).state = .rampDown then (s.advanceTo (s.panel p).rampEnd).endRamp p .off else s

/-! ## The power emergency (R81) -/

/-- A panel forced down by the start of the emergency, `ends` being the end of a ramp begun now. -/
def PanelCtl.force (c : PanelCtl) (ends : Nat) : PanelCtl :=
  if c.state = .rampUp ∨ c.state = .standby ∨ c.state = .showing then
    { c.leave .rampDown with
      rampEnd := ends, longOp := .none
      counters := { c.counters with emergency := satInc c.counters.emergency } }
  else c

/-- The panels that the start of the emergency finds in RAMP_UP. -/
def State.rampingUp (s : State) : List Panel :=
  [Panel.left, .right].filter (fun p => decide ((s.panel p).state = .rampUp))

/-- The emergency forces the panels down, and a Panels On that ramps one of them is answered STATE
(R77, R81). -/
def State.forcePanels (s : State) : State :=
  let up := s.rampingUp
  let t := (s.updatePanels [.left, .right] fun c => c.force (s.osc + ms 5)).settleRefresh
  t.finish (fun e => decide (e.kind = 0x40) && up.any (fun p => e.ramps p)) .state panelEndFields

/-! ## The refresh timer's row (R83) -/

/-- REFRESH_START: the refresh timer, while it runs, delivers a refresh start; while one panel's work of the
latest start is still to be taken, the row is that work (R83, R84, log entry 19). -/
def execRefreshStart (s : State) : Host.Outcome State Fault Refusal :=
  s.live fun s =>
    if s.sco.refreshing.isSome then s.finishRefresh
    else
      match s.sco.refreshDue with
      | none => s
      | some due => (s.advanceTo due).deliverRefresh due

/-! ## Outputs and resets -/

/-- The colour bytes a panel shows at a column and line of its 1600 × 1600 area: none when it is dark
or black, or holds no such frame (R84 step 4, R90). -/
def State.panelPixel (s : State) (p : Panel) (column line : Nat) : Option (List Byte) :=
  let e := s.fri.eyes.get p
  match (s.panel p).window, (e.inState .scanning).head? with
  | some w, some i =>
    (e.slots[i].lines[w.line + line]?).map fun row => (row.drop (3 * (w.column + column))).take 3
  | _, _ => none

/-- Hub Reset at the Scan-Out: the geometry waits for the load (R97, R178). -/
def Sco.hubReset (c : Sco) : Sco := { Sco.reset with geometry := c.geometry }

end Sys2Proof.Machine
end

