-- ==== Sys2Proof/Machine/Channels.lean ====
section
/-! DEFINITION. The Channel Filter and the Return Channel's own operations and requests (chapter 9). -/

namespace Sys2Proof.Machine

/-! ## Channel Filter requests (R151 to R153) -/

/-- The table holds an enabled entry with destination CONTROL (R151, R152). -/
def hasControl (es : Vector FilterEntry 8) : Bool :=
  es.toList.any (fun e => e.enabled && decide (e.dest = .control))

/-- A filter entry from its fields, if they are in range (R151, R152). -/
def filterEntryOf (enabled : Bool) (value mask dest : Nat) : Option FilterEntry :=
  if value ≤ 0xFFF ∧ mask ≤ 0xFFF then
    (destinationOfCode dest).map
      (fun d => ⟨enabled, BitVec.ofNat 12 value, BitVec.ofNat 12 mask, d, 0⟩)
  else none

def FilterEntry.fields (e : FilterEntry) : List Byte :=
  packFlag e.enabled ++ pack16 e.value.toNat ++ pack16 e.mask.toNat ++ pack8 e.dest.code

/-- Set Channel Filter (R152). -/
def setChannelFilter (ps : List Byte) (s : State) : Answer :=
  if ps.length ≠ 7 then s.refuse .length
  else if h : field ps 0 1 < 8 then
    match filterEntryOf (flagField ps 1) (field ps 2 2) (field ps 4 2) (field ps 6 1) with
    | none => s.refuse .range
    | some e =>
      let es := s.cfl.entries.set (field ps 0 1) e h
      if hasControl es then
        ⟨.done, pack8 (field ps 0 1) ++ e.fields, s.setCfl { s.cfl with entries := es }⟩
      else s.refuse .state
  else s.refuse .range

/-- SET_CHANNEL_FILTER (R152). -/
def execSetChannelFilter (tag : Byte) (ps : List Byte) (s : State) :
    Host.Outcome State Fault Refusal := s.immediate 0x68 tag ps setChannelFilter

/-- The hit counts and the unmatched count set to 0 (R153). -/
def Cfl.clearCounters (c : Cfl) : Cfl :=
  { entries := c.entries.map (fun e => { e with hits := 0 }), unmatched := 0 }

/-- The reply fields of Read Channel Filter (R153). -/
def Cfl.fields (c : Cfl) : List Byte :=
  (c.entries.toList.map (fun e => e.fields ++ packCount e.hits)).flatten ++ packCount c.unmatched

/-- Read Channel Filter (R153). -/
def readChannelFilter (ps : List Byte) (s : State) : Answer :=
  if ps.length ≠ 1 then s.refuse .length
  else ⟨.done, s.cfl.fields, if flagField ps 0 then s.setCfl s.cfl.clearCounters else s⟩

/-- READ_CHANNEL_FILTER (R153). -/
def execReadChannelFilter (tag : Byte) (ps : List Byte) (s : State) :
    Host.Outcome State Fault Refusal := s.immediate 0x69 tag ps readChannelFilter

/-! ## Return Channel requests (R158, R163) -/

def PerClass.fields (p : PerClass Count) : List Byte :=
  packCount p.reply ++ packCount p.report ++ packCount p.motion ++ packCount p.capture

/-- Set Return Priority (R158). -/
def setReturnPriority (ps : List Byte) (s : State) : Answer :=
  if ps.length ≠ 4 then s.refuse .length
  else if ps.any (fun b => decide (3 < b.toNat)) then s.refuse .range
  else
    ⟨.done, ps, s.setRch { s.rch with
      priority := ⟨field ps 0 1, field ps 1 1, field ps 2 1, field ps 3 1⟩ }⟩

/-- SET_RETURN_PRIORITY (R158). -/
def execSetReturnPriority (tag : Byte) (ps : List Byte) (s : State) :
    Host.Outcome State Fault Refusal := s.immediate 0x6A tag ps setReturnPriority

def TxSlot.fields : TxSlot → List Byte
  | .empty => pack8 0 ++ pack8 0
  | .occupied i => pack8 1 ++ pack8 i.itemClass.code
  | .transmitting i => pack8 2 ++ pack8 i.itemClass.code

/-- The reply fields of Read Return Status (R163). -/
def State.returnFields (s : State) : List Byte :=
  let r := s.rch
  pack8 r.priority.reply ++ pack8 r.priority.report ++ pack8 r.priority.motion ++
    pack8 r.priority.capture ++ (r.slots.toList.map TxSlot.fields).flatten ++
    packFlag r.pendingMotion.isSome ++ packFlag s.lnk.suspended ++ packCount r.superseded ++
    r.dropped.fields ++ r.sent.fields

/-- The nine counts of the Return Channel set to 0 (R163). -/
def Rch.clearCounters (r : Rch) : Rch :=
  { r with superseded := 0, dropped := ⟨0, 0, 0, 0⟩, sent := ⟨0, 0, 0, 0⟩ }

/-- Read Return Status (R163). -/
def readReturnStatus (ps : List Byte) (s : State) : Answer :=
  if ps.length ≠ 1 then s.refuse .length
  else ⟨.done, s.returnFields, if flagField ps 0 then s.setRch s.rch.clearCounters else s⟩

/-- READ_RETURN_STATUS (R163). -/
def execReadReturnStatus (tag : Byte) (ps : List Byte) (s : State) :
    Host.Outcome State Fault Refusal := s.immediate 0x6B tag ps readReturnStatus

/-! ## Motion supersede (R159) -/

/-- The slot that holds a MOTION item. -/
def Rch.motionSlot (r : Rch) : Option (Fin 4) :=
  ([0, 1, 2, 3] : List (Fin 4)).find?
    (fun i => decide (r.slots[i].item.map Item.itemClass = some .motion))

/-- A new motion report becomes the pending one, superseding an earlier one (R159). -/
def Rch.pend (r : Rch) (payload : List Byte) : Rch :=
  { r with
    pendingMotion := some payload
    superseded := if r.pendingMotion.isSome then satInc r.superseded else r.superseded }

/-- The Sensor Sampler offers a new motion report (R159). -/
def State.offerMotion (s : State) (payload : List Byte) : State :=
  match s.rch.motionSlot with
  | none => (s.setRch (s.rch.pend payload)).place
  | some i =>
    match s.rch.slots[i] with
    | .occupied _ =>
      s.setRch { s.rch with
        slots := s.rch.slots.set i (.occupied (.motion payload))
        superseded := satInc s.rch.superseded }
    | _ => s.setRch (s.rch.pend payload)

/-! ## Flush at link DOWN, Hub Reset (R161, R164) -/

/-- One more dropped item of a class. -/
def PerClass.countOne (p : PerClass Count) (c : ItemClass) : PerClass Count := p.set c (satInc (p.get c))

/-- Every slot and the pending motion report are emptied, each item counted dropped (R161). -/
def Rch.flush (r : Rch) : Rch :=
  let gone := r.slots.toList.filterMap (fun t => t.item.map Item.itemClass) ++
    (if r.pendingMotion.isSome then [ItemClass.motion] else [])
  { r with
    slots := Vector.replicate 4 .empty
    pendingMotion := none
    dropped := gone.foldl PerClass.countOne r.dropped }

/-- Hub Reset at the Channel Filter: counts 0 at once, the table waits for the load (R151). -/
def Cfl.hubReset (c : Cfl) : Cfl := c.clearCounters

end Sys2Proof.Machine
end

