-- ==== Sys2Proof/Machine/Motion.lean ====
section
/-! DEFINITION. The Sensor Sampler (chapter 2): Slot List, ticks, reads, correction, sample records,
stillness, wear, presence, motion reports, its requests. -/

namespace Sys2Proof.Machine

/-! ## Presence reports (R35) -/

/-- A Presence report with a cause, if its enable is on (R35). -/
def State.presenceReport (s : State) (cause : Nat) : State :=
  s.reportIf s.mge.enables.presence .presence
    (pack8 cause ++ pack8 s.smp.presence.code ++ packFlag s.smp.removed ++ packFlag s.smp.still ++
      packFlag s.smp.faults.inertial.faulted ++ packFlag s.smp.faults.proximity.faulted ++
      packTime s.tas.now)

/-- The presence state that the wear and motion states give (R35). -/
def presenceOf (removed still : Bool) : Presence :=
  if removed then .removed else if still then .still else .active

/-- The presence state is worked out; a change is passed to the Power Manager and reported (R35). -/
def State.settlePresence (s : State) : State :=
  let p := presenceOf s.smp.removed s.smp.still
  if p = s.smp.presence then s
  else (s.setSmp { s.smp with presence := p }).updateCap.presenceReport 1

/-! ## Correction (R29) -/

/-- A quotient n / 16384 rounded to the nearest integer, halves away from zero. -/
def roundGain (n : Int) : Int := n.sign * ((n.natAbs + 8192) / 16384 : Nat)

/-- A value held to signed 16 bits. -/
def sat16 (v : Int) : Int := clampInt (-32768) 32767 v

/-- The corrected value of a raw word and whether it was saturated (R29). -/
def Calibration.correct (c : Calibration) (raw : BitVec 16) : Int × Bool :=
  let v := roundGain ((raw.toInt - c.bias) * c.gain)
  (sat16 v, decide (sat16 v ≠ v))

/-! ## Faults of a device (R28) -/

/-- A device is judged at the completion of a set that held a slot of it (R28). -/
def State.judgeFault (s : State) (failing : Bool) (d : Device) : State :=
  let f := s.smp.faults.get d
  if failing then
    if f.faulted then s
    else if 8 ≤ f.failing + 1 then
      let t := s.setSmp { s.smp with faults := s.smp.faults.set d ⟨true, 8⟩ }
      let u := t.setSummary bitMotion
      (u.setSmp { u.smp with faultEntries := satInc u.smp.faultEntries }).presenceReport 2
    else s.setSmp { s.smp with faults := s.smp.faults.set d ⟨false, f.failing + 1⟩ }
  else
    let t := s.setSmp { s.smp with faults := s.smp.faults.set d ⟨false, 0⟩ }
    if f.faulted then t.presenceReport 3 else t

/-- The set judges a device it holds a slot of (R28). -/
def State.judgeSetFault (s : State) (st : SampleSet) (d : Device) : State :=
  if st.slots.any (fun x => decide (x.device = d)) then s.judgeFault (st.failing.get d) d else s

/-! ## Stillness (R32, R33) -/

def rateChannels : List Channel := [.gx, .gy, .gz]
def accelChannels : List Channel := [.ax, .ay, .az]

/-- The record is still: R32's four conditions. Under a list with rate channels and without acceleration
channels they can hold of the first record after power-on reset, Hub Reset or Set Schedule, since no previous
value is then asked for, while R32's closing sentence says that this record is not still, because the previous
values are absent. The model takes the four conditions (log entry 48, DESIGN CHOICE). -/
def SampleRecord.isStill (r : SampleRecord) (w : WearSettings) (previous : PerChannel (Option Int)) :
    Bool :=
  (rateChannels ++ accelChannels).any (fun c => (r.values.get c).isSome) &&
    (rateChannels ++ accelChannels).all (fun c =>
      match r.values.get c with
      | none => true
      | some v => !v.stale) &&
    rateChannels.all (fun c =>
      match r.values.get c with
      | none => true
      | some v => decide (v.value.natAbs ≤ w.gyroThreshold)) &&
    accelChannels.all (fun c =>
      match r.values.get c, previous.get c with
      | none, _ => true
      | some _, none => false
      | some v, some p => decide ((v.value - p).natAbs ≤ w.accelThreshold))

/-- The stored previous accelerometer values after a record (R32). -/
def SampleRecord.previous (r : SampleRecord) : PerChannel (Option Int) :=
  { PerChannel.const (none : Option Int) with
    ax := r.values.ax.map ChannelValue.value
    ay := r.values.ay.map ChannelValue.value
    az := r.values.az.map ChannelValue.value }

/-- The Still Delay in µs. -/
def WearSettings.delay (w : WearSettings) : Nat := w.stillDelay * 1000000

/-- Still time, previous values and motion state after a record (R32, R33). -/
def Smp.judgeStill (m : Smp) (r : SampleRecord) (period : Nat) : Smp :=
  let still := r.isStill m.settings m.previous
  let time := if still then min (m.stillTime + period) m.settings.delay else 0
  { m with
    stillTime := time
    previous := r.previous
    still := if m.still then still else decide (m.settings.delay ≤ time) }

/-! ## Wear (R34) -/

/-- The runs after a record that holds PROX. -/
def Smp.wearRuns (m : Smp) (v : ChannelValue) (period : Nat) : Nat × Nat :=
  if v.stale then (0, 0)
  else if v.value < m.settings.wearThreshold then (m.removalRun + period, 0)
  else if m.settings.wearThreshold + m.settings.wearHysteresis < v.value then
    (0, m.returnRun + period)
  else (0, 0)

/-- The runs and the wear state after a record (R34). -/
def Smp.judgeWear (m : Smp) (r : SampleRecord) (period : Nat) : Smp :=
  match r.values.prox with
  | none => m
  | some v =>
    let runs := m.wearRuns v period
    if m.removed = false ∧ 500000 ≤ runs.1 then
      { m with removed := true, removalRun := 0, returnRun := 0 }
    else if m.removed = true ∧ 500000 ≤ runs.2 then
      { m with removed := false, removalRun := 0, returnRun := 0 }
    else { m with removalRun := runs.1, returnRun := runs.2 }

/-! ## Motion reports (R36, 12.3) -/

/-- Bit i is set for the i-th channel that satisfies a test. -/
def channelMask (f : Channel → Bool) : Nat :=
  Channel.all.foldr (fun c n => (f c).toNat + 2 * n) 0

/-- A sample entry (12.3). -/
def sampleEntry (r : SampleRecord) (yaw pitch roll : Angle) : List Byte :=
  pack32 r.seq.toNat ++ packTime r.time ++ pack8 r.skipped ++
    pack8 (channelMask fun c => (r.values.get c).isSome) ++
    pack8 (channelMask fun c => (r.values.get c).any ChannelValue.stale) ++
    pack8 (channelMask fun c => (r.values.get c).any ChannelValue.saturated) ++
    pack32 yaw.toNat ++ pack32 pitch.toNat ++ pack32 roll.toNat ++
    (Channel.all.filterMap fun c => (r.values.get c).map fun v => packS16 v.value).flatten

/-- A motion report (12.3). -/
def motionReport (es : List BatchEntry) : List Byte :=
  pack8 es.length ++ (es.map fun e => sampleEntry e.record e.yaw e.pitch e.roll).flatten

/-- The record joins the batch, and a full batch is offered as a motion report (R36). -/
def State.joinBatch (s : State) (r : SampleRecord) : State :=
  if s.smp.reporting then
    let b := s.smp.batch ++ [⟨r, s.ori.yaw, s.ori.pitch, s.ori.roll⟩]
    if s.smp.batchSize ≤ b.length then
      (s.setSmp { s.smp with batch := [] }).offerMotion (motionReport b)
    else s.setSmp { s.smp with batch := b }
  else s

/-! ## Completion of a sample set (R30, R31) -/

/-- The sequence number after `n`, and whether it wraps to 1 (R30). -/
def nextSeq (n : Seq) : Seq × Bool := if n = BitVec.allOnes 32 then (1, true) else (n + 1, false)

/-- A channel of the record: a held value for a failed read (R27). -/
def recordValue (held : Int) : Reading → Option ChannelValue
  | .absent => none
  | .good v sat => some ⟨v, false, sat⟩
  | .failed => some ⟨held, true, false⟩

/-- The record of a set (R30). -/
def Smp.recordOf (m : Smp) (st : SampleSet) : SampleRecord where
  seq := (nextSeq m.lastSeq).1
  time := st.sampleTime
  skipped := m.skipped
  values :=
    { gx := recordValue m.held.gx st.readings.gx
      gy := recordValue m.held.gy st.readings.gy
      gz := recordValue m.held.gz st.readings.gz
      ax := recordValue m.held.ax st.readings.ax
      ay := recordValue m.held.ay st.readings.ay
      az := recordValue m.held.az st.readings.az
      temp := recordValue m.held.temp st.readings.temp
      prox := recordValue m.held.prox st.readings.prox }

/-- Steps 1 and 2 of R31: the record enters the Sample Ring and the Pose History. -/
def State.storeRecord (s : State) (r : SampleRecord) : State :=
  let wrapped := (nextSeq s.smp.lastSeq).2
  (s.setSmp { s.smp with
    ring := push64 (if wrapped then [] else s.smp.ring) r
    lastSeq := r.seq, skipped := 0, set := none }).setOri (s.ori.integrate r wrapped)

/-- A set completes (R31). No rule orders the two devices' judgements: the model judges and reports INERTIAL
first, so its report carries PROXIMITY's fault state from before (log entry 44, DESIGN CHOICE). -/
def State.completeSet (s : State) (st : SampleSet) : State :=
  let r := s.smp.recordOf st
  let s1 := s.storeRecord r
  let s2 := (s1.judgeSetFault st .inertial).judgeSetFault st .proximity
  let s3 := s2.setSmp ((s2.smp.judgeStill r st.period).judgeWear r st.period)
  s3.settlePresence.joinBatch r

/-! ## Reads (R20) -/

/-- A read ends at oscillator count `ends`: the next slot's read begins, or the set completes. -/
def State.nextRead (s : State) (st : SampleSet) (ends : Nat) : State :=
  let rest := st.todo.tail
  if rest.isEmpty then s.completeSet { st with todo := rest }
  else s.setSmp { s.smp with set := some { st with todo := rest, readStart := ends, readyAt := none } }

/-- A good read of a slot gives its channel a corrected value, which becomes the held one (R27, R29). -/
def State.goodRead (s : State) (st : SampleSet) (slot : SensorSlot) (word : BitVec 16) :
    State × SampleSet :=
  match slot.channel with
  | none => (s, st)
  | some c =>
    let v := (s.smp.calibration.get c).correct word
    (s.setSmp { s.smp with
      held := s.smp.held.set c v.1
      saturatedValues := if v.2 then satInc s.smp.saturatedValues else s.smp.saturatedValues },
     { st with readings := st.readings.set c (.good v.1 v.2) })

/-- A failed read of a slot (R20, R27). -/
def State.failedRead (s : State) (st : SampleSet) (slot : SensorSlot) : State × SampleSet :=
  (s.setSmp { s.smp with
    failedReads := s.smp.failedReads.set slot.device (satInc (s.smp.failedReads.get slot.device)) },
   { st with
     failing := st.failing.set slot.device true
     readings := match slot.channel with
       | none => st.readings
       | some c => st.readings.set c .failed })

/-- SENSOR_READY_LINE_RAISED: the addressed device's ready line is seen within 100 µs of the start of
the read (R20). -/
def execSensorReadyLineRaised (d : Device) (s : State) : Host.Outcome State Fault Refusal :=
  s.live fun s =>
    match s.smp.set with
    | none => s
    | some st =>
      if st.readyAt = none ∧ st.todo.head?.map SensorSlot.device = some d ∧
          s.osc ≤ st.readStart + us 100 then
        s.setSmp { s.smp with set := some { st with readyAt := some s.osc } }
      else s

/-- SENSOR_READ_END: a read ends 24 µs after its ready line was seen, with a good word (R20). -/
def execSensorReadEnd (word : BitVec 16) (s : State) : Host.Outcome State Fault Refusal :=
  s.live fun s =>
    match s.smp.set with
    | none => s
    | some st =>
      match st.readyAt, st.todo with
      | some ready, slot :: _ =>
        let r := (s.advanceTo (ready + us 24)).goodRead st slot word
        r.1.nextRead r.2 (ready + us 24)
      | _, _ => s

/-- SENSOR_READ_TIMEOUT: a read whose ready line was not raised within 100 µs fails (R20). -/
def execSensorReadTimeout (s : State) : Host.Outcome State Fault Refusal :=
  s.live fun s =>
    match s.smp.set with
    | none => s
    | some st =>
      match st.readyAt, st.todo with
      | none, slot :: _ =>
        let r := (s.advanceTo (st.readStart + us 100)).failedRead st slot
        r.1.nextRead r.2 (st.readStart + us 100)
      | _, _ => s

/-! ## Ticks (R25, R26) -/

/-- A tick starts a sample set (R25). -/
def State.startSet (s : State) (period : Nat) : State :=
  s.setSmp { s.smp with
    set := some ⟨s.smp.slotList, s.smp.slotList, s.tas.now, period, .const .absent, ⟨false, false⟩,
      s.osc, none⟩ }

/-- A tick is skipped (R26). -/
def State.skipTick (s : State) : State :=
  (s.setSmp { s.smp with
    overruns := satInc s.smp.overruns, skipped := min 255 (s.smp.skipped + 1) }).setSummary bitMotion

/-- SAMPLING_TICK: the tick timer, while it runs, delivers a tick (R25, R26). -/
def execSamplingTick (s : State) : Host.Outcome State Fault Refusal :=
  s.live fun s =>
    match s.smp.tickDue with
    | none => s
    | some due =>
      let t := s.advanceTo due
      let period := t.rateInForce.period
      let u := t.setSmp { t.smp with tickDue := some (due + us period) }
      if u.smp.set.isSome then u.skipTick else u.startSet period

/-! ## Set Schedule (R21, R22) -/

/-- A slot description (R21). -/
def parseSlot (device address channel : Nat) : Option SensorSlot :=
  match deviceOfCode device, slotChannelOfCode channel with
  | some d, some c => some ⟨d, BitVec.ofNat 8 address, c⟩
  | _, _ => none

/-- `n` slot descriptions, if every code names a device or channel. -/
def parseSlots : Nat → List Byte → Option (List SensorSlot)
  | 0, _ => some []
  | n + 1, bs =>
    match parseSlot (field bs 0 1) (field bs 1 1) (field bs 2 1), parseSlots n (bs.drop 3) with
    | some x, some l => some (x :: l)
    | _, _ => none

/-- Checks 4 and 5 of R21: each named channel on its device, and on one slot only. -/
def slotsValid (l : List SensorSlot) : Bool :=
  l.all (fun x => match x.channel with
    | none => true
    | some c => decide (c.device = x.device)) &&
  decide ((l.filterMap SensorSlot.channel).Nodup)

/-- A Slot List from its count and descriptions, if it passes checks 2 to 5 of R21. -/
def slotListOf (n : Nat) (bs : List Byte) : Option (List SensorSlot) :=
  if 12 < n then none
  else (parseSlots n bs).bind fun l => if slotsValid l then some l else none

/-- The Slot List has a slot of the device. -/
def hasDevice (l : List SensorSlot) (d : Device) : Bool := l.any (fun x => decide (x.device = d))

/-- The Slot List has a PROX slot. -/
def hasProx (l : List SensorSlot) : Bool := l.any (fun x => decide (x.channel = some .prox))

/-- The fault state of a device that the new list leaves without a slot (R22). -/
def State.dropDevice (s : State) (l : List SensorSlot) (d : Device) : State :=
  if hasDevice l d then s
  else
    let t := s.setSmp { s.smp with faults := s.smp.faults.set d ⟨false, 0⟩ }
    if (s.smp.faults.get d).faulted then t.presenceReport 3 else t

/-- A load is running or owed, so that ticks wait for its end (R184). -/
def Cst.loading (c : Cst) : Bool :=
  match c.op with
  | .loading _ => true
  | _ => c.loadOwed

/-- The tick timer after a new list: stopped for an empty one, started for one that follows an empty
one, else as it was (R22). -/
def State.rescheduleTick (s : State) (old : List SensorSlot) : State :=
  let due :=
    if s.smp.slotList.isEmpty then none
    else if old.isEmpty && !s.cst.loading then some (s.osc + us s.rateInForce.period)
    else s.smp.tickDue
  s.setSmp { s.smp with tickDue := due }

/-- An accepted Slot List is applied (R22). Where it leaves neither device a slot, no rule orders the two
devices' FAULT_CLEAR reports: the model drops INERTIAL first, so its report carries PROXIMITY's fault state
from before (log entry 44, DESIGN CHOICE). -/
def State.applySchedule (s : State) (l : List SensorSlot) : State :=
  let s1 := s.setSmp { s.smp with
    slotList := l, stillTime := 0, previous := .const none, removalRun := 0, returnRun := 0
    removed := s.smp.removed && hasProx l }
  let s2 := (s1.settlePresence.dropDevice l .inertial).dropDevice l .proximity
  s2.rescheduleTick s.smp.slotList

/-- Set Schedule (R21). -/
def setSchedule (ps : List Byte) (s : State) : Answer :=
  if ps.length ≠ 1 + 3 * field ps 0 1 then s.refuse .length
  else
    match slotListOf (field ps 0 1) (ps.drop 1) with
    | none => s.refuse .range
    | some l => ⟨.done, pack8 l.length, s.applySchedule l⟩

/-- SET_SCHEDULE (R21, R22). -/
def execSetSchedule (tag : Byte) (ps : List Byte) (s : State) : Host.Outcome State Fault Refusal :=
  s.immediate 0x20 tag ps setSchedule

/-! ## Other settings -/

/-- Set Sampling Rate, as a host request or a fired action (R23). -/
def setSamplingRate (ps : List Byte) (s : State) : Answer :=
  if ps.length ≠ 2 then s.refuse .length
  else
    let t := s.setSmp { s.smp with requestedRate := SampleRate.roundDown (field ps 0 2) }
    ⟨.done, pack16 t.smp.requestedRate.hz ++ pack16 t.rateInForce.hz, t⟩

/-- SET_SAMPLING_RATE (R23). -/
def execSetSamplingRate (tag : Byte) (ps : List Byte) (s : State) :
    Host.Outcome State Fault Refusal := s.immediate 0x21 tag ps setSamplingRate

/-- Gain is in range (R29). -/
def gainOk (g : Nat) : Bool := decide (8192 ≤ g) && decide (g ≤ 32767)

/-- Set Calibration (R29). -/
def setCalibration (ps : List Byte) (s : State) : Answer :=
  if ps.length ≠ 5 then s.refuse .length
  else
    match Channel.ofCode (field ps 0 1) with
    | none => s.refuse .range
    | some c =>
      if gainOk (field ps 3 2) then
        ⟨.done, ps, s.setSmp { s.smp with
          calibration := s.smp.calibration.set c ⟨toSigned16 (field ps 1 2), field ps 3 2⟩ }⟩
      else s.refuse .range

/-- SET_CALIBRATION (R29). -/
def execSetCalibration (tag : Byte) (ps : List Byte) (s : State) :
    Host.Outcome State Fault Refusal := s.immediate 0x22 tag ps setCalibration

/-- Set Stillness (R33). -/
def setStillness (ps : List Byte) (s : State) : Answer :=
  if ps.length ≠ 6 then s.refuse .length
  else
    let delay := clampNat 1 600 (field ps 4 2)
    ⟨.done, pack16 (field ps 0 2) ++ pack16 (field ps 2 2) ++ pack16 delay,
      s.setSmp { s.smp with settings := { s.smp.settings with
        gyroThreshold := field ps 0 2, accelThreshold := field ps 2 2, stillDelay := delay } }⟩

/-- SET_STILLNESS (R33). -/
def execSetStillness (tag : Byte) (ps : List Byte) (s : State) : Host.Outcome State Fault Refusal :=
  s.immediate 0x23 tag ps setStillness

/-- Set Wear (R34). -/
def setWear (ps : List Byte) (s : State) : Answer :=
  if ps.length ≠ 4 then s.refuse .length
  else
    let threshold := toSigned16 (field ps 0 2)
    let hysteresis := min (field ps 2 2) 32767
    ⟨.done, packS16 threshold ++ pack16 hysteresis,
      s.setSmp { s.smp with settings := { s.smp.settings with
        wearThreshold := threshold, wearHysteresis := hysteresis } }⟩

/-- SET_WEAR (R34). -/
def execSetWear (tag : Byte) (ps : List Byte) (s : State) : Host.Outcome State Fault Refusal :=
  s.immediate 0x24 tag ps setWear

/-- Set Motion Reporting (R36). -/
def setMotionReporting (ps : List Byte) (s : State) : Answer :=
  if ps.length ≠ 2 then s.refuse .length
  else
    let size := clampNat 1 8 (field ps 1 1)
    ⟨.done, packFlag (flagField ps 0) ++ pack8 size,
      s.setSmp { s.smp with reporting := flagField ps 0, batchSize := size, batch := [] }⟩

/-- SET_MOTION_REPORTING (R36). -/
def execSetMotionReporting (tag : Byte) (ps : List Byte) (s : State) :
    Host.Outcome State Fault Refusal := s.immediate 0x25 tag ps setMotionReporting

/-! ## Queries -/

/-- The sample entry of a held record, its angles from the Pose History (R37). -/
def State.heldEntry (s : State) (r : SampleRecord) : List Byte :=
  match s.ori.history.find? (fun e => decide (e.seq = r.seq)) with
  | some e => sampleEntry r e.yaw e.pitch e.roll
  | none => sampleEntry r 0 0 0

/-- Read Samples (R37). -/
def readSamples (ps : List Byte) (s : State) : Answer :=
  if ps.length ≠ 5 then s.refuse .length
  else
    let first := field ps 0 4
    let count := field ps 4 1
    if count = 0 ∨ 8 < count then s.refuse .range
    else
      let rs := s.smp.ring.filter fun r =>
        decide (first ≤ r.seq.toNat ∧ r.seq.toNat < first + count)
      ⟨.done, pack32 (oldestSeq (s.smp.ring.map SampleRecord.seq)) ++
        pack32 (newestSeq (s.smp.ring.map SampleRecord.seq)) ++ pack8 rs.length ++
        (rs.map s.heldEntry).flatten, s⟩

/-- READ_SAMPLES (R37). -/
def execReadSamples (tag : Byte) (ps : List Byte) (s : State) : Host.Outcome State Fault Refusal :=
  s.immediate 0x26 tag ps readSamples

def DeviceFault.fields (f : DeviceFault) : List Byte := packFlag f.faulted ++ pack8 f.failing

/-- The reply fields of Read Motion Status (R38). -/
def State.motionFields (s : State) : List Byte :=
  let m := s.smp
  pack16 m.requestedRate.hz ++ pack16 s.rateInForce.hz ++ pack16 s.pmg.row.maxRate.hz ++
    pack8 m.slotList.length ++ m.faults.inertial.fields ++ m.faults.proximity.fields ++
    packFlag m.still ++ packFlag m.removed ++ pack8 m.presence.code ++ pack32 (m.stillTime / 1000) ++
    packCount m.overruns ++ packCount m.failedReads.inertial ++ packCount m.failedReads.proximity ++
    packCount m.saturatedValues ++ packCount m.faultEntries ++
    pack32 (oldestSeq (m.ring.map SampleRecord.seq)) ++
    pack32 (newestSeq (m.ring.map SampleRecord.seq))

/-- The five counters of the Sampler set to 0 (R38). -/
def Smp.clearCounters (m : Smp) : Smp :=
  { m with overruns := 0, failedReads := ⟨0, 0⟩, saturatedValues := 0, faultEntries := 0 }

/-- Read Motion Status (R38). -/
def readMotionStatus (ps : List Byte) (s : State) : Answer :=
  if ps.length ≠ 1 then s.refuse .length
  else ⟨.done, s.motionFields, if flagField ps 0 then s.setSmp s.smp.clearCounters else s⟩

/-- READ_MOTION_STATUS (R38). -/
def execReadMotionStatus (tag : Byte) (ps : List Byte) (s : State) :
    Host.Outcome State Fault Refusal := s.immediate 0x27 tag ps readMotionStatus

/-! ## Clears and resets (R40) -/

/-- Function Clear MOTION at the Sampler (R40). -/
def Smp.clearMotion (m : Smp) : Smp := { m with ring := [], held := .const 0, batch := [] }

/-- Hub Reset at the Sampler: its stored configuration waits for the load, and so do ticks (R40,
R178, R184). -/
def Smp.hubReset (m : Smp) : Smp :=
  { Smp.reset with
    slotList := m.slotList
    requestedRate := m.requestedRate
    calibration := m.calibration
    settings := m.settings }

end Sys2Proof.Machine
end

