-- ==== Sys2Proof/Machine/Audio.lean ====
section
/-! DEFINITION. The Audio Unit (chapter 6): Playout Queue, playout, attenuation, capture, its
requests. -/

namespace Sys2Proof.Machine

/-! ## The Playout Queue (R98) -/

/-- A block at the place its presentation time gives it. -/
def insertBlock (b : AudioBlock) : List AudioBlock → List AudioBlock
  | [] => [b]
  | c :: l => if b.time.toNat < c.time.toNat then b :: c :: l else c :: insertBlock b l

/-- The block an audio payload carries, none where it is malformed (R99). -/
def audioBlockOf (payload : List Byte) : Option AudioBlock :=
  let frames := field payload 6 2
  if 8 ≤ payload.length ∧ 48 ≤ frames ∧ frames ≤ 480 ∧ payload.length - 8 = frames * 4 then
    some ⟨BitVec.ofNat 48 (field payload 0 6), frames, payload.drop 8⟩
  else none

/-- The block's presentation time is that of a queued block or of the current one (R99). -/
def Aud.duplicates (a : Aud) (b : AudioBlock) : Bool :=
  a.queue.any (fun c => decide (c.time = b.time)) ||
    a.current.any (fun c => decide (c.block.time = b.time))

/-! ## Examination of the head (R100) -/

/-- How an examination ends. -/
inductive Examined where
  | waits (queue : List AudioBlock)
  | starts (block : AudioBlock) (queue : List AudioBlock)
  | emptied
  deriving DecidableEq, Repr

/-- Heads are judged against `now` until one waits or starts or the queue is empty; with the number
of heads discarded as late. -/
def examineQueue (now : Nat) : List AudioBlock → Examined × Nat
  | [] => (.emptied, 0)
  | b :: l =>
    if now + 250 < b.time.toNat then (.waits (b :: l), 0)
    else if b.time.toNat + 2000 < now then
      ((examineQueue now l).1, (examineQueue now l).2 + 1)
    else (.starts b l, 0)

/-- Oscillator count of the next output frame at or after `t` on the port's cadence (6.1). -/
def Aud.frameAt (a : Aud) (t : Nat) : Nat :=
  match a.portStart with
  | none => t
  | some p => p + (t - p + audioFrame - 1) / audioFrame * audioFrame

/-- A block becomes the current block, its first frame at oscillator count `first` (R100). -/
def Aud.start (a : Aud) (b : AudioBlock) (rest : List AudioBlock) (first : Nat) : Aud :=
  { a with
    queue := rest
    current := some ⟨b, first, first + b.frames * audioFrame⟩
    play := .playing
    counters := { a.counters with started := satInc a.counters.started } }

/-- Entry into STARVED, counted once; staying there counts nothing (R101). -/
def State.starve (s : State) : State :=
  if s.aud.play = .starved then s
  else
    (s.setAud { s.aud with
      play := .starved
      counters := { s.aud.counters with underrun := satInc s.aud.counters.underrun } }).setSummary
      bitAudio

/-- The head is examined; a block that starts has its first frame at `first` (R100). -/
def State.examine (s : State) (first : Nat) : State :=
  let r := examineQueue s.tas.now.toNat s.aud.queue
  let a := { s.aud with
    counters := { s.aud.counters with late := satAdd s.aud.counters.late r.2 } }
  match r.1 with
  | .waits q => s.setAud { a with queue := q, play := .waiting }
  | .starts b q => s.setAud (a.start b q first)
  | .emptied =>
    let t := s.setAud { a with queue := [] }
    if s.aud.play = .idle then t else t.starve

/-- An accepted block is inserted, and examined where R99 says so. -/
def State.acceptBlock (s : State) (b : AudioBlock) : State :=
  let t := s.setAud { s.aud with queue := insertBlock b s.aud.queue }
  let newHead := decide (t.aud.queue.head? = some b)
  match s.aud.play with
  | .idle => t.examine (t.aud.frameAt t.osc)
  | .starved => t.examine (t.aud.frameAt t.osc)
  | .waiting => if newHead then t.examine (t.aud.frameAt t.osc) else t
  | .playing => t

/-- An audio block is taken at its arrival (R99). -/
def State.audioBlock (s : State) (payload : List Byte) : State :=
  let c := s.aud.counters
  match audioBlockOf payload with
  | none => s.setAud { s.aud with counters := { c with malformed := satInc c.malformed } }
  | some b =>
    if s.aud.duplicates b then
      s.setAud { s.aud with counters := { c with duplicate := satInc c.duplicate } }
    else if 16 ≤ s.aud.queue.length then
      (s.setAud { s.aud with
        counters := { c with playoutOverflow := satInc c.playoutOverflow } }).setSummary bitAudio
    else s.acceptBlock b

/-! ## Playing and waiting (R101, R102) -/

/-- A Time Mark has moved Tether Time forward: a WAITING head it has reached is examined (R102). -/
def State.audioStep (s : State) : State :=
  match s.aud.play, s.aud.queue with
  | .waiting, b :: _ =>
    if b.time.toNat ≤ s.tas.now.toNat then s.examine (s.aud.frameAt s.osc) else s
  | _, _ => s

/-- The WAITING head starts at its presentation time (R102). -/
def State.startHead (s : State) (b : AudioBlock) (rest : List AudioBlock) : State :=
  s.setAud (s.aud.start b rest (s.aud.frameAt s.osc))

/-- PLAYOUT_HEAD_DUE: in WAITING, Tether Time comes to the head's presentation time (R102). -/
def execPlayoutHeadDue (s : State) : Host.Outcome State Fault Refusal :=
  s.live fun s =>
    match s.aud.play, s.aud.queue with
    | .waiting, b :: rest => (s.awaitTime b.time).startHead b rest
    | _, _ => s

/-- The current block is released, and the Audio Unit acts on the queue (R101). -/
def State.endBlock (s : State) (ends : Nat) : State :=
  let t := s.setAud { s.aud with current := none }
  if t.aud.queue.isEmpty then t.starve else t.examine ends

/-- CURRENT_BLOCK_END: the last frame of the current block has been sent (R101). -/
def execCurrentBlockEnd (s : State) : Host.Outcome State Fault Refusal :=
  s.live fun s =>
    match s.aud.current with
    | none => s
    | some c => (s.advanceTo c.ends).endBlock c.ends

/-! ## Output frames (R105) -/

/-- The ratio −0.5 × a dB is 10 to the power −a / 40: the scaled magnitude of `m` is at least `n` just when
n⁴⁰ × 10ᵃ ≤ m⁴⁰ (R105). -/
def scaledAtLeast (att m n : Nat) : Bool := decide (n ^ 40 * 10 ^ att ≤ m ^ 40)

/-- The whole part of the scaled magnitude of `m`, its lowest `k` bits found from the highest down; `n`
holds the bits found before. -/
def scaledFloor (att m : Nat) : Nat → Nat → Nat
  | 0, n => n
  | k + 1, n => scaledFloor att m k (if scaledAtLeast att m (n + 2 ^ k) then n + 2 ^ k else n)

/-- The magnitude that a sample's magnitude `m` is scaled to: the exact one where it is whole, else one of
the two whole values next to it, `up` saying which (R105, log entry 15). -/
def scaledMagnitude (att m : Nat) (up : Bool) : Nat :=
  let n := scaledFloor att m 16 0
  if n ^ 40 * 10 ^ att = m ^ 40 then n else if up then n + 1 else n

/-- One output sample at an attenuation in force: 255 mutes it, below that it is scaled by −0.5 × a dB, 0
leaving it as it is (R105, log entry 15). -/
def outputSample (att : Nat) (w : BitVec 16) : BitVec 16 :=
  if 255 ≤ att then 0
  else BitVec.ofInt 16 (w.toInt.sign * scaledMagnitude att w.toInt.natAbs (Config.attenuateUp att w))

/-- The output frame, left and right, that passes at oscillator count `t` (6.3.1, R105). -/
def State.outputFrame (s : State) (t : Nat) : BitVec 16 × BitVec 16 :=
  match s.aud.current with
  | none => (0, 0)
  | some c =>
    if c.first ≤ t ∧ t < c.ends then
      let i := (t - c.first) / audioFrame
      (outputSample s.attenuation (BitVec.ofNat 16 (field c.block.samples (4 * i) 2)),
        outputSample s.attenuation (BitVec.ofNat 16 (field c.block.samples (4 * i + 2) 2)))
    else (0, 0)

/-! ## Attenuation (R104) -/

/-- Set Attenuation, as a host request or a fired action (R104). -/
def setAttenuation (ps : List Byte) (s : State) : Answer :=
  if ps.length ≠ 2 then s.refuse .length
  else
    let t := s.setAud { s.aud with requestedAtt := min (field ps 0 2) 255 }
    ⟨.done, pack8 t.aud.requestedAtt ++ pack8 t.attenuation, t⟩

/-- SET_ATTENUATION (R104). -/
def execSetAttenuation (tag : Byte) (ps : List Byte) (s : State) :
    Host.Outcome State Fault Refusal := s.immediate 0x50 tag ps setAttenuation

/-! ## Capture (R106 to R109) -/

/-- Start Capture, as a host request or a fired action (R106). -/
def startCapture (ps : List Byte) (s : State) : Answer :=
  if ps.length ≠ 3 then s.refuse .length
  else if field ps 2 1 ≠ 1 ∧ field ps 2 1 ≠ 2 then s.refuse .range
  else if s.aud.capturing then s.refuse .state
  else
    let frames := clampNat 48 480 (field ps 0 2)
    ⟨.done, pack16 frames ++ pack8 (field ps 2 1) ++ packFlag true,
      s.setAud { s.aud with
        capturing := true, framesPerBlock := frames, channels := field ps 2 1
        partialBlock := none }⟩

/-- START_CAPTURE (R106). -/
def execStartCapture (tag : Byte) (ps : List Byte) (s : State) : Host.Outcome State Fault Refusal :=
  s.immediate 0x51 tag ps startCapture

/-- Stop Capture, as a host request or a fired action (R107). -/
def stopCapture (ps : List Byte) (s : State) : Answer :=
  if ps.length ≠ 0 then s.refuse .length
  else ⟨.done, packFlag false, s.setAud { s.aud with capturing := false, partialBlock := none }⟩

/-- STOP_CAPTURE (R107). -/
def execStopCapture (tag : Byte) (ps : List Byte) (s : State) : Host.Outcome State Fault Refusal :=
  s.immediate 0x52 tag ps stopCapture

/-- A completed block joins the Capture Queue, the oldest leaving a full one (R109). -/
def State.queueCapture (s : State) (b : CaptureBlock) : State :=
  let c := s.aud.counters
  if s.aud.captureQueue.length < 8 then
    (s.setAud { s.aud with captureQueue := s.aud.captureQueue ++ [b] }).place
  else
    ((s.setAud { s.aud with
      captureQueue := s.aud.captureQueue.tail ++ [b]
      counters := { c with captureOverflow := satInc c.captureOverflow } }).setSummary bitAudio).place

/-- A gathered block is complete (R108). -/
def State.completeCapture (s : State) (p : PartialBlock) : State :=
  let a := s.aud
  (s.setAud { a with
    partialBlock := none
    blockNumber := a.blockNumber + 1
    counters := { a.counters with captured := satInc a.counters.captured } }).queueCapture
    ⟨a.blockNumber, p.time, p.frames, a.channels, p.samples⟩

/-- The block being gathered after one more input frame (R108). -/
def State.gather (s : State) (first second : BitVec 16) : PartialBlock :=
  let frame := if s.aud.channels = 1 then [first] else [first, second]
  match s.aud.partialBlock with
  | none => ⟨s.tas.now, 1, frame⟩
  | some p => ⟨p.time, p.frames + 1, p.samples ++ frame⟩

/-- An input frame is taken at the port (R108). -/
def State.inputFrame (s : State) (first second : BitVec 16) : State :=
  if s.aud.capturing then
    let p := s.gather first second
    if s.aud.framesPerBlock ≤ p.frames then s.completeCapture p
    else s.setAud { s.aud with partialBlock := some p }
  else s

/-- The input frame has passed: the next one is due a frame later on the cadence, or a frame after the
latest cadence point that lies behind (6.1). -/
def State.passInput (s : State) (start due : Nat) : State :=
  s.setAud { s.aud with
    lastInput := max due (start + (s.osc - start) / audioFrame * audioFrame) }

/-- CAPTURE_INPUT_FRAME: the port, once started, takes its next input frame (R108). -/
def execCaptureInputFrame (first second : BitVec 16) (s : State) :
    Host.Outcome State Fault Refusal :=
  s.live fun s =>
    match s.aud.portStart with
    | none => s
    | some start =>
      let due := s.aud.lastInput + audioFrame
      ((s.advanceTo due).passInput start due).inputFrame first second

/-! ## Status, clears, link DOWN and resets (R110 to R114) -/

def AudioCounters.fields (c : AudioCounters) : List Byte :=
  packCount c.duplicate ++ packCount c.playoutOverflow ++ packCount c.malformed ++
    packCount c.late ++ packCount c.underrun ++ packCount c.started ++ packCount c.captureOverflow ++
    packCount c.captured

/-- The reply fields of Read Audio Status (R111). -/
def State.audioFields (s : State) : List Byte :=
  let a := s.aud
  pack8 a.play.code ++ pack8 a.queue.length ++
    packTime ((a.queue.head?.map AudioBlock.time).getD 0) ++
    packTime ((a.current.map (fun c => c.block.time)).getD 0) ++ pack8 a.requestedAtt ++
    pack8 s.attenuation ++ pack8 s.pmg.row.minAttenuation ++ packFlag a.capturing ++
    pack16 a.framesPerBlock ++ pack8 a.channels ++ pack8 a.captureQueue.length ++ a.counters.fields

/-- The eight audio counters set to 0 (R110). -/
def Aud.clearCounters (a : Aud) : Aud := { a with counters := ⟨0, 0, 0, 0, 0, 0, 0, 0⟩ }

/-- Read Audio Status (R111). -/
def readAudioStatus (ps : List Byte) (s : State) : Answer :=
  if ps.length ≠ 1 then s.refuse .length
  else ⟨.done, s.audioFields, if flagField ps 0 then s.setAud s.aud.clearCounters else s⟩

/-- READ_AUDIO_STATUS (R111). -/
def execReadAudioStatus (tag : Byte) (ps : List Byte) (s : State) :
    Host.Outcome State Fault Refusal := s.immediate 0x53 tag ps readAudioStatus

/-- Function Clear AUDIO (R112). -/
def Aud.clearAudio (a : Aud) : Aud :=
  { a with
    queue := [], current := none, play := .idle, capturing := false, partialBlock := none
    captureQueue := [], blockNumber := 0 }

/-- Link DOWN empties the Capture Queue (R113). -/
def Aud.linkDown (a : Aud) : Aud := { a with captureQueue := [] }

/-- Hub Reset at the Audio Unit; the port's cadence runs on (R114, 6.1). -/
def Aud.hubReset (a : Aud) : Aud :=
  { Aud.reset with portStart := a.portStart, lastInput := a.lastInput }

end Sys2Proof.Machine
end

