-- ==== Sys2Proof/Machine/Power.lean ====
section
/-! DEFINITION. The Power Manager (chapter 7): contract, rail scans, stages, emergency, Throttle Table,
its requests. -/

namespace Sys2Proof.Machine

/-! ## The contract (R115, R116) -/

/-- The contract of a grant already clamped (R115). -/
def contractOf (grant : Nat) : Nat := grant * 250

/-- Power Grant (R116). -/
def powerGrant (ps : List Byte) (s : State) : Answer :=
  if ps.length ≠ 1 then s.refuse .length
  else
    let grant := clampNat 8 80 (field ps 0 1)
    ⟨.done, pack8 grant ++ pack16 (contractOf grant),
      s.setPmg { s.pmg with contract := contractOf grant }⟩

/-- POWER_GRANT (R116). -/
def execPowerGrant (tag : Byte) (ps : List Byte) (s : State) : Host.Outcome State Fault Refusal :=
  s.immediate 0x58 tag ps powerGrant

/-! ## Units of the rail monitor (7.2) -/

/-- VIN in mV. -/
def railVin (r : RailCodes) : Nat := r.vin.toNat * 10

/-- The scan power in mW (R117 step 3). -/
def railPower (r : RailCodes) : Nat := railVin r * r.iin.toNat / 1000

/-! ## Power reports (R127) -/

/-- The fields of a Power report (R127). -/
def State.powerReportFields (s : State) (cause : Nat) : List Byte :=
  let p := s.pmg
  pack8 cause ++ pack8 p.ps.val ++ pack8 p.ts.val ++ pack8 p.bs.val ++ pack8 p.stage.val ++
    packFlag p.emergency ++ pack16 s.emissionCap ++ pack16 p.contract ++ pack32 p.lastAverage ++
    pack16 (railVin p.rails) ++ packTime s.tas.now

/-- A Power report, if its enable is on (R127). -/
def State.powerReport (s : State) (cause : Nat) : State :=
  s.reportIf s.mge.enables.power .power (s.powerReportFields cause)

/-! ## Stages (R119 to R121) -/

/-- A stage one higher, holding at 3. -/
def stageUp (p : Fin 4) : Fin 4 := if p = 3 then 3 else p + 1

/-- A stage one lower, holding at 0. -/
def stageDown (p : Fin 4) : Fin 4 := if p = 0 then 0 else p - 1

/-- The power stage after a window end (R119). -/
def Pmg.judgePower (p : Pmg) : Pmg :=
  if p.contract < p.lastAverage then
    { p with ps := stageUp p.ps, below := 0, overContract := satInc p.overContract }
  else if p.lastAverage + p.hysteresis < p.contract then
    if 2 ≤ p.below + 1 then { p with ps := stageDown p.ps, below := 0 }
    else { p with below := p.below + 1 }
  else { p with below := 0 }

/-- The temperature stage after a scan (R120). -/
def tempStage (ts : Fin 4) (code : Nat) : Fin 4 :=
  if ts = 0 then
    if 1472 ≤ code then 3 else if 1352 ≤ code then 2 else 0
  else if ts = 3 then
    if 1432 ≤ code then 3 else if 1312 ≤ code then 2 else 0
  else
    if 1472 ≤ code then 3 else if 1312 ≤ code then 2 else 0

/-- The brown-out stage after a scan (R121). -/
def brownOutStage (bs : Fin 4) (vin : Nat) : Fin 4 :=
  if bs = 0 then if vin < 1050 then 3 else 0
  else if 1080 ≤ vin then 0 else 3

/-- The scan power is added to the window in progress; the scan that ends the window closes it, and
the power stage is judged (R117 step 3, R118). -/
def Pmg.addScan (p : Pmg) : Pmg :=
  match p.window with
  | none => p
  | some w =>
    let sum := w.sum + p.scanPower
    let scans := w.scans + 1
    if p.windowLength ≤ scans then
      { p with lastAverage := sum / p.windowLength, window := some ⟨0, 0⟩ }.judgePower
    else { p with window := some ⟨sum, scans⟩ }

/-- Steps 1 to 3 of a scan (R117). -/
def Pmg.measure (p : Pmg) (codes : RailCodes) : Pmg :=
  { p with
    rails := codes
    ts := tempStage p.ts codes.temp.toNat
    bs := brownOutStage p.bs codes.vin.toNat
    scanPower := railPower codes }.addScan

/-- The greatest of the three stages (R123). -/
def Pmg.greatest (p : Pmg) : Fin 4 := max (max p.ps p.ts) p.bs

/-- The stage in force is worked out again; a change is counted, sets POWER and is reported (R123). -/
def State.judgeStage (s : State) : State :=
  let p := s.pmg
  if p.greatest = p.stage then s
  else
    let t := (s.setPmg { p with
      stage := p.greatest
      worst := max p.worst p.greatest
      stageChanges := satInc p.stageChanges }).updateCap
    (t.setSummary bitPower).powerReport 1

/-! ## The emergency (R122) -/

/-- The emergency begins (R122). -/
def State.beginEmergency (s : State) : State :=
  let t := s.setPmg { s.pmg with
    emergency := true, lowScans := 4, emergencies := satInc s.pmg.emergencies }
  (t.forcePanels.setSummary bitPower).powerReport 2

/-- The emergency is judged at a scan (R122). -/
def State.judgeEmergency (s : State) : State :=
  let vin := s.pmg.rails.vin.toNat
  if s.pmg.emergency then
    if 1080 ≤ vin then
      (s.setPmg { s.pmg with emergency := false, lowScans := 0 }).powerReport 3
    else s
  else if vin < 950 then
    if 4 ≤ s.pmg.lowScans + 1 then s.beginEmergency
    else s.setPmg { s.pmg with lowScans := s.pmg.lowScans + 1 }
  else s.setPmg { s.pmg with lowScans := 0 }

/-- The end of a scan, steps 1 to 5 (R117). -/
def State.scan (s : State) (codes : RailCodes) : State :=
  (s.setPmg { s.pmg.measure codes with scanDue := s.pmg.scanDue + us 1000 }).judgeStage.judgeEmergency

/-- RAIL_SCAN_END: the monitor, which always runs, ends a scan (R117). -/
def execRailScanEnd (codes : RailCodes) (s : State) : Host.Outcome State Fault Refusal :=
  s.live fun s => (s.advanceTo s.pmg.scanDue).scan codes

/-! ## The Throttle Table (R124) -/

/-- A row may stand directly above another: caps and rates do not rise, attenuations do not fall. -/
def ThrottleRow.before (a b : ThrottleRow) : Bool :=
  decide (b.emissionCap ≤ a.emissionCap) && decide (a.minAttenuation ≤ b.minAttenuation) &&
    decide (b.maxRate.hz ≤ a.maxRate.hz)

/-- The three order conditions (R124). -/
def rowsOrdered (rows : Vector ThrottleRow 4) : Bool :=
  rows[0].before rows[1] && rows[1].before rows[2] && rows[2].before rows[3]

/-- Set Throttle Row (R124). -/
def setThrottleRow (ps : List Byte) (s : State) : Answer :=
  if ps.length ≠ 7 then s.refuse .length
  else if h : field ps 0 1 < 4 then
    let row : ThrottleRow :=
      ⟨min (field ps 1 2) 1023, min (field ps 3 2) 255, SampleRate.roundDown (field ps 5 2)⟩
    let rows := s.pmg.rows.set (field ps 0 1) row h
    if rowsOrdered rows then
      ⟨.done,
        pack8 (field ps 0 1) ++ pack16 row.emissionCap ++ pack16 row.minAttenuation ++
          pack16 row.maxRate.hz,
        (s.setPmg { s.pmg with rows := rows }).updateCap⟩
    else s.refuse .range
  else s.refuse .range

/-- SET_THROTTLE_ROW (R124). -/
def execSetThrottleRow (tag : Byte) (ps : List Byte) (s : State) :
    Host.Outcome State Fault Refusal := s.immediate 0x59 tag ps setThrottleRow

/-! ## Power policy (R125) -/

/-- A window length rounded down to 16, 32, 64 or 128, below 16 taken as 16 (R125). -/
def windowLengthOf (n : Nat) : Nat :=
  if 128 ≤ n then 128 else if 64 ≤ n then 64 else if 32 ≤ n then 32 else 16

/-- Set Power Policy (R125). -/
def setPowerPolicy (ps : List Byte) (s : State) : Answer :=
  if ps.length ≠ 5 then s.refuse .length
  else
    let len := windowLengthOf (field ps 0 1)
    let hyst := min (field ps 1 2) 1500
    let still := min (field ps 3 2) 1023
    let p := { s.pmg with windowLength := len, hysteresis := hyst, stillEmission := still }
    let q := if len = s.pmg.windowLength then p
      else { p with window := p.window.map (fun _ => ⟨0, 0⟩), below := 0 }
    ⟨.done, pack8 len ++ pack16 hyst ++ pack16 still, (s.setPmg q).updateCap⟩

/-- SET_POWER_POLICY (R125). -/
def execSetPowerPolicy (tag : Byte) (ps : List Byte) (s : State) :
    Host.Outcome State Fault Refusal := s.immediate 0x5A tag ps setPowerPolicy

/-! ## Status and resets (R128, R129) -/

/-- The reply fields of Read Power Status (R128). -/
def State.powerFields (s : State) : List Byte :=
  let p := s.pmg
  let r := p.rails
  pack16 p.contract ++ pack16 (railVin r) ++ pack16 r.iin.toNat ++ pack16 (r.vpanel.toNat * 10) ++
    pack16 r.ipanel.toNat ++ pack16 r.vcore.toNat ++ pack16 (r.vaudio.toNat * 2) ++
    pack16 r.iaudio.toNat ++ pack16 r.temp.toNat ++ pack32 p.scanPower ++ pack32 p.lastAverage ++
    pack8 p.windowLength ++ pack8 ((p.window.map PowerWindow.scans).getD 0) ++ pack16 p.hysteresis ++
    pack8 p.ps.val ++ pack8 p.below ++ pack8 p.ts.val ++ pack8 p.bs.val ++ pack8 p.stage.val ++
    pack8 p.worst.val ++ packFlag p.emergency ++ pack16 s.emissionCap ++
    pack8 p.row.minAttenuation ++ pack16 p.row.maxRate.hz ++ pack16 s.presenceCap ++
    pack16 p.stillEmission ++ packCount p.overContract ++ packCount p.stageChanges ++
    packCount p.emergencies

/-- The three counters of the Power Manager set to 0 (R128). -/
def Pmg.clearCounters (p : Pmg) : Pmg :=
  { p with overContract := 0, stageChanges := 0, emergencies := 0 }

/-- Read Power Status; it sets the worst stage back whether or not clear is set (R128). -/
def readPowerStatus (ps : List Byte) (s : State) : Answer :=
  if ps.length ≠ 1 then s.refuse .length
  else
    let p := { s.pmg with worst := s.pmg.stage }
    ⟨.done, s.powerFields, s.setPmg (if flagField ps 0 then p.clearCounters else p)⟩

/-- READ_POWER_STATUS (R128). -/
def execReadPowerStatus (tag : Byte) (ps : List Byte) (s : State) :
    Host.Outcome State Fault Refusal := s.immediate 0x5B tag ps readPowerStatus

/-- Hub Reset at the Power Manager: contract, rails and scans go on, the stored configuration waits
for the load (R129, R178). -/
def Pmg.hubReset (p : Pmg) : Pmg :=
  { Pmg.reset with
    contract := p.contract
    rails := p.rails
    scanPower := p.scanPower
    scanDue := p.scanDue
    windowLength := p.windowLength
    hysteresis := p.hysteresis
    stillEmission := p.stillEmission
    rows := p.rows }

end Sys2Proof.Machine
end

