-- ==== Sys2Proof/Machine/Timebase.lean ====
section
/-! DEFINITION. The Timebase and Action Scheduler (chapter 1): Time Marks, the Action Table, firing, its
requests. -/

namespace Sys2Proof.Machine

/-! ## Table order (R8) -/

/-- A timed entry stands before every entry of later due time and before the GROUPED ones (R8). -/
def Action.precedes (a b : Action) : Bool :=
  match a.trigger.due, b.trigger.due with
  | some x, some y => decide (x.toNat < y.toNat)
  | some _, none => true
  | none, _ => false

/-- An entry at the place R8 gives it. -/
def insertAction (a : Action) : List Action → List Action
  | [] => [a]
  | b :: l => if a.precedes b then a :: b :: l else b :: insertAction a l

/-- The entry with an id leaves the table; the others keep their order. -/
def State.removeAction (s : State) (id : Byte) : State :=
  s.setTas { s.tas with table := s.tas.table.filter (fun e => decide (e.id ≠ id)) }

/-! ## Firing (R12 to R15) -/

/-- The five causes of a firing (1.2.4). -/
inductive FireCause where
  | expiry | step | set | add | group
  deriving DecidableEq, Repr

def FireCause.code : FireCause → Nat
  | .expiry => 1
  | .step => 2
  | .set => 3
  | .add => 4
  | .group => 5

/-- The late flag of a cause (1.2.4). -/
def FireCause.late : FireCause → Bool
  | .expiry => false
  | .step => true
  | .set => true
  | .add => true
  | .group => false

/-- A fired action at its target, as the matching host request (R14). -/
def ActionKind.deliver (k : ActionKind) (ps : List Byte) (s : State) : Answer :=
  match k with
  | .setDisplayMode => Machine.setDisplayMode ps s
  | .setEmission => Machine.setEmission ps s
  | .panelsShow => Machine.panelsShow ps s
  | .panelsStandby => Machine.panelsStandby ps s
  | .setSamplingRate => Machine.setSamplingRate ps s
  | .setAttenuation => Machine.setAttenuation ps s
  | .startCapture => Machine.startCapture ps s
  | .stopCapture => Machine.stopCapture ps s
  | .marker => ⟨.done, [], s⟩

/-- The fields of an Action Done report (R15). -/
def actionDoneFields (e : Action) (status : Status) (cause : FireCause) (time : Time) : List Byte :=
  [e.id, e.kind.code] ++ pack8 status.code ++ packFlag cause.late ++ pack8 cause.code ++ packTime time

/-- An action fires: it is delivered, and reported if the enable is on (R14, R15). The rules order the deliveries
and the reports among themselves only: the model hands each Action Done report over inside its own firing,
before the next entry is delivered and before the reply of an Add Action or Group Trigger is formed (log
entry 46, DESIGN CHOICE). -/
def State.fire (s : State) (e : Action) (cause : FireCause) (time : Time) : State :=
  let a := e.kind.deliver e.params s
  a.state.reportIf a.state.mge.enables.actionDone .actionDone
    (actionDoneFields e a.status cause time)

/-- Entries fire in table order, each removed before it is delivered (R5, R12). -/
def State.fireAll (s : State) (es : List Action) (cause : FireCause) (time : Time) : State :=
  es.foldl (fun t e => (t.removeAction e.id).fire e cause time) s

/-- Expiry at a due time: every entry with that due time fires (R13). -/
def State.expire (s : State) (due : Time) : State :=
  s.fireAll (s.tas.table.filter (fun e => decide (e.trigger.due = some due))) .expiry due

/-- ACTION_EXPIRY: Tether Time comes to the due time of the head of the table (R13). -/
def execActionExpiry (s : State) : Host.Outcome State Fault Refusal :=
  s.live fun s =>
    match s.tas.table.head?.bind (fun e => e.trigger.due) with
    | none => s
    | some due => (s.awaitTime due).expire due

/-! ## Time Marks (R2 to R6) -/

/-- Every timed entry at or before Tether Time fires (R5). -/
def State.firePassed (s : State) (cause : FireCause) : State :=
  s.fireAll
    (s.tas.table.filter fun e => e.trigger.due.any fun d => decide (d.toNat ≤ s.tas.now.toNat))
    cause s.tas.now

/-- The first well-formed mark sets Tether Time (R3, R102). -/
def State.setTime (s : State) (t : Time) : State :=
  let u := s.setTas { s.tas with now := t, valid := true }
  if s.tas.now.toNat < t.toNat then (u.firePassed .set).audioStep else u

/-- A signed value held to 32 bits, as a Time Step report carries the offset (R4). -/
def clampOffset (i : Int) : Int := clampInt (-2147483648) 2147483647 i

/-- A step of Tether Time (R4 to R6, R102, log entry 21). -/
def State.stepTime (s : State) (t : Time) (offset : Int) : State :=
  let u := (s.setTas { s.tas with
    now := t, stepCount := satInc s.tas.stepCount }).setSummary bitTime
  let v := u.reportIf u.mge.enables.timeStep .timeStep
    (packS32 (clampOffset offset) ++ packTime t ++ packCount u.tas.stepCount)
  if 0 < offset then (v.firePassed .step).audioStep else v

/-- A Time Mark arrives (R2 to R4). -/
def State.timeMark (s : State) (payload : List Byte) : State :=
  if payload.length ≠ 6 then
    s.setTas { s.tas with malformedMarks := satInc s.tas.malformedMarks }
  else
    let t : Time := BitVec.ofNat 48 (field payload 0 6)
    let u := s.setTas { s.tas with markCount := satInc s.tas.markCount }
    if s.tas.valid then
      let offset := timeDiff t s.tas.now
      if -2 ≤ offset ∧ offset ≤ 2 then u else u.stepTime t offset
    else u.setTime t

/-! ## Read Time (R7) -/

/-- The step and mark counts set to 0 (R7, R19). -/
def Tas.clearCounters (t : Tas) : Tas := { t with stepCount := 0, markCount := 0, malformedMarks := 0 }

def Tas.fields (t : Tas) : List Byte :=
  packTime t.now ++ packFlag t.valid ++ packCount t.stepCount ++ packCount t.markCount ++
    packCount t.malformedMarks

/-- Read Time (R7). -/
def readTime (ps : List Byte) (s : State) : Answer :=
  if ps.length ≠ 1 then s.refuse .length
  else ⟨.done, s.tas.fields, if flagField ps 0 then s.setTas s.tas.clearCounters else s⟩

/-- READ_TIME (R7). -/
def execReadTime (tag : Byte) (ps : List Byte) (s : State) : Host.Outcome State Fault Refusal :=
  s.immediate 0x10 tag ps readTime

/-! ## Add Action (R10, R11) -/

/-- The form and what it carries, none where it is out of range (R10 check 4). -/
def triggerOf (form due group : Nat) : Option Trigger :=
  if form = 1 then some (.timed (BitVec.ofNat 48 due))
  else if form = 2 ∧ group ≤ 7 then some (.grouped group)
  else if form = 3 ∧ group ≤ 7 then some (.timedGrouped (BitVec.ofNat 48 due) group)
  else none

/-- The entry that an Add Action asks for, or the status of the check of R10 that fails. -/
def State.newAction (s : State) (ps : List Byte) : Except Status Action :=
  if ps.length < 10 then .error .length
  else
    match ActionKind.ofCode (ps.getD 9 0) with
    | none => .error .range
    | some k =>
      if ps.length ≠ 10 + k.paramLength then .error .length
      else
        match triggerOf (field ps 1 1) (field ps 2 6) (field ps 8 1) with
        | none => .error .range
        | some t =>
          if s.tas.table.any (fun e => decide (e.id = ps.headD 0)) then .error .inUse
          else if 16 ≤ s.tas.table.length then .error .full
          else .ok ⟨ps.headD 0, t, k, ps.drop 10⟩

/-- An answer to Add Action: id, disposition, entries; an id that did not come is a free value (R10,
log entry 11). -/
def State.actionAnswer (s : State) (status : Status) (disposition : Nat) (ps : List Byte) : Answer :=
  match ps with
  | id :: _ => ⟨status, [id] ++ pack8 disposition ++ pack8 s.tas.table.length, s⟩
  | [] => ⟨status, [s.takeFree.1] ++ pack8 disposition ++ pack8 s.tas.table.length, s.takeFree.2⟩

/-- The action's due time has come (R11). -/
def State.passed (s : State) (e : Action) : Bool :=
  e.trigger.due.any fun d => decide (d.toNat ≤ s.tas.now.toNat)

/-- Add Action (R10, R11). -/
def addAction (ps : List Byte) (s : State) : Answer :=
  match s.newAction ps with
  | .error st => s.actionAnswer st 2 ps
  | .ok e =>
    if s.passed e then (s.fire e .add s.tas.now).actionAnswer .done 1 ps
    else
      (s.setTas { s.tas with table := insertAction e s.tas.table }).actionAnswer .done 0 ps

/-- ADD_ACTION (R10, R11). -/
def execAddAction (tag : Byte) (ps : List Byte) (s : State) : Host.Outcome State Fault Refusal :=
  s.immediate 0x11 tag ps addAction

/-! ## Cancel Action, List Actions, Group Trigger (R16 to R18) -/

/-- Cancel Action (R17). -/
def cancelAction (ps : List Byte) (s : State) : Answer :=
  if ps.length ≠ 1 then s.refuse .length
  else
    let id := ps.headD 0
    let t := s.removeAction id
    if s.tas.table.any (fun e => decide (e.id = id)) then ⟨.done, [id] ++ pack8 t.tas.table.length, t⟩
    else ⟨.notFound, [id] ++ pack8 s.tas.table.length, s⟩

/-- CANCEL_ACTION (R17). -/
def execCancelAction (tag : Byte) (ps : List Byte) (s : State) : Host.Outcome State Fault Refusal :=
  s.immediate 0x12 tag ps cancelAction

/-- An entry description in List Actions (R18). -/
def Action.fields (e : Action) : List Byte :=
  [e.id] ++ pack8 e.trigger.code ++ packTime (e.trigger.due.getD 0) ++
    pack8 (e.trigger.group.getD 0) ++ [e.kind.code]

/-- List Actions (R18). -/
def listActions (ps : List Byte) (s : State) : Answer :=
  if ps.length ≠ 0 then s.refuse .length
  else
    ⟨.done, packTime s.tas.now ++ pack8 s.tas.table.length ++ (s.tas.table.map Action.fields).flatten,
      s⟩

/-- LIST_ACTIONS (R18). -/
def execListActions (tag : Byte) (ps : List Byte) (s : State) : Host.Outcome State Fault Refusal :=
  s.immediate 0x13 tag ps listActions

/-- Group Trigger (R16). -/
def groupTrigger (ps : List Byte) (s : State) : Answer :=
  if ps.length ≠ 1 then s.refuse .length
  else if 7 < field ps 0 1 then s.refuse .range
  else
    let es := s.tas.table.filter (fun e => decide (e.trigger.group = some (field ps 0 1)))
    ⟨.done, pack8 (field ps 0 1) ++ pack8 es.length, s.fireAll es .group s.tas.now⟩

/-- GROUP_TRIGGER (R16). -/
def execGroupTrigger (tag : Byte) (ps : List Byte) (s : State) : Host.Outcome State Fault Refusal :=
  s.immediate 0x14 tag ps groupTrigger

/-! ## Resets (R19) -/

/-- Function Clear ACTIONS (R19). -/
def Tas.clearActions (t : Tas) : Tas := { t with table := [] }

/-- Hub Reset at the Timebase: the clock, the valid flag and the step count are kept (R19). -/
def Tas.hubReset (t : Tas) : Tas := { t with table := [], markCount := 0, malformedMarks := 0 }

end Sys2Proof.Machine
end

