-- ==== Sys2Proof/Machine/Link.lean ====
section
/-! DEFINITION. The Tether Link (chapter 8): training, recovery, DOWN, quality, quiet idle, loopback, its
requests. -/

namespace Sys2Proof.Machine

/-! ## Lanes and rates (R130, R133) -/

/-- How many lanes of a set. -/
def countLanes (v : Vector Bool 4) : Nat := v.toList.countP id

/-- The largest of 4, 2 and 1 that is no greater than the locked lanes and the partner's figure (R133). -/
def laneCount (locked : Vector Bool 4) (figure : Nat) : Nat :=
  if 4 ≤ min (countLanes locked) figure then 4
  else if 2 ≤ min (countLanes locked) figure then 2
  else 1

/-- The locked lanes below a lane. -/
def lockedBelow (locked : Vector Bool 4) (i : Lane) : Nat :=
  (([0, 1, 2, 3] : List Lane).filter (fun j => decide (j < i) && locked[j])).length

/-- The lowest-numbered locked lanes up to a count (R130). -/
def laneSet (locked : Vector Bool 4) (n : Nat) : Vector Bool 4 :=
  Vector.ofFn (fun i : Lane => locked[i] && decide (lockedBelow locked i < n))

/-- The host's word lists a rate. -/
def wordLists (w : HostWord) : LaneRate → Bool
  | .half => w.half
  | .full => w.full

/-- The other of the two rates. -/
def LaneRate.other : LaneRate → LaneRate
  | .half => .full
  | .full => .half

/-- The wanted rate if the word lists it, otherwise the other (R133, R134). -/
def rateFor (w : HostWord) (wanted : LaneRate) : LaneRate :=
  if wordLists w wanted then wanted else wanted.other

/-- The link, its lanes locked, enters UP at a rate chosen: active set, grades, first window (R133,
R134). -/
def Lnk.enterUp (l : Lnk) (w : HostWord) (wanted : LaneRate) (now : Time) (osc : Nat) : Lnk :=
  let active := laneSet l.locked (laneCount l.locked w.lanes.toNat)
  { l with
    state := .up
    rate := some (rateFor w wanted)
    active := active
    grades := active.map (fun a => if a then 7 else 0)
    lowWindows := 0
    crcTally := 0
    windowEnd := some (osc + us l.quality.windowLength)
    latestUp := now
    limit := none }

/-- A Link report, if its enable is on (R133). -/
def State.linkReport (s : State) (cause : Nat) : State :=
  let l := s.lnk
  s.reportIf s.mge.enables.link .link
    (pack8 cause ++ pack8 (rateCode l.rate) ++ pack8 (countLanes l.active) ++
      pack8 (laneSetCode l.active) ++ pack8 (l.grantApplied.getD 0) ++
      pack8 ((l.partner.map fun w => w.user.toNat).getD 0) ++ packTime l.latestUp)

/-! ## Completions (R132 to R134) -/

/-- What TRAIN completes with at the link (R133 steps 1 to 5). -/
def Lnk.train (l : Lnk) (w : HostWord) (now : Time) (osc : Nat) : Lnk :=
  let u := l.enterUp w l.preferred now osc
  { u with
    partner := some w
    heldWord := none
    grantReceived := some w.grant.toNat
    grantApplied := some (clampNat 8 80 w.grant.toNat)
    worst := Vector.ofFn (fun i : Lane => if u.active[i] then 7 else l.worst[i]) }

/-- The completion of TRAIN (R133, R115). -/
def State.trainComplete (s : State) (w : HostWord) : State :=
  let t := (s.setLnk (s.lnk.train w s.tas.now s.osc)).setPmg
    { s.pmg with contract := contractOf (clampNat 8 80 w.grant.toNat) }
  (t.setSummary bitLink).linkReport 1

/-- The reply fields of a Link Retrain that ends now (R144). -/
def retrainFields (_ : InProgress) (s : State) : List Byte :=
  pack8 (rateCode s.lnk.rate) ++ pack8 (countLanes s.lnk.active) ++ pack8 (laneSetCode s.lnk.active)

/-- The request holds the link (R144). -/
def InProgress.holdsLink (e : InProgress) : Bool := decide (e.resource = .link)

/-- The completion of RECOVER, the partner's word governing (R134, R144). -/
def State.recoverComplete (s : State) (w : HostWord) : State :=
  let t := s.setLnk { s.lnk.enterUp w s.lnk.target s.tas.now s.osc with wordArrived := false }
  ((t.setSummary bitLink).linkReport 2).finish InProgress.holdsLink .done retrainFields

/-- TRAIN or RECOVER completes if its conditions hold now (R132, R134). -/
def State.tryComplete (s : State) : State :=
  if s.lnk.locked[0] then
    match s.lnk.state with
    | .train =>
      match s.lnk.heldWord with
      | some w => s.trainComplete w
      | none => s
    | .recover =>
      match s.lnk.wordArrived, s.lnk.partner with
      | true, some w => s.recoverComplete w
      | _, _ => s
    | _ => s
  else s

/-! ## U0 (R138, R146) -/

/-- The head of the echo queue leaves it and is sent on a free U0 (R146, log entry 30). -/
def State.sendEcho (s : State) : State :=
  match s.lnk.u0, s.lnk.echoQueue with
  | .idle, f :: rest =>
    s.setLnk { s.lnk with echoQueue := rest, u0 := .echo f false (s.osc + laneTime f.length) }
  | _, _ => s

/-- The part's ability word: HALF and FULL, 4 lanes, quiet capable, with the power request and the user byte
taken at entry to TRAIN (8.2.1, R132). -/
def Lnk.ownWord (l : Lnk) : PartWord := ⟨true, true, 4, true, l.sentRequest, l.sentUser⟩

/-- The part's ability word begins on U0; it lasts 0.256 µs (R138). -/
def State.sendWord (s : State) : State :=
  s.setLnk { s.lnk with u0 := .abilityWord s.lnk.ownWord (s.osc + 192) }

/-- What follows on a U0 that is now free: an echo during loopback, else the arbitration, else in TRAIN
the next ability word (R138, R146, R157). -/
def State.freeLane (s : State) : State :=
  let t := s.setLnk { s.lnk with u0 := .idle }
  if t.lnk.suspended then t.sendEcho
  else
    let u := t.arbitrate
    if u.lnk.u0 = .idle ∧ u.lnk.state = .train then u.sendWord else u

/-- ABILITY_WORD_END: the ability word on U0 has been sent (R138). -/
def execAbilityWordEnd (s : State) : Host.Outcome State Fault Refusal :=
  s.live fun s =>
    match s.lnk.u0 with
    | .abilityWord _ ends => (s.advanceTo ends).freeLane
    | _ => s

/-! ## Remote loopback (R145, R146) -/

/-- The echo on U0 is of a frame that arrived at this very moment, and began with its arrival (R146). -/
def U0.justArrived (u : U0) (osc : Nat) : Bool :=
  match u with
  | .echo f arrived ends => arrived && decide (osc + laneTime f.length ≤ ends)
  | _ => false

/-- A loopback armed or running ends: frames left in the echo queue are echo drops, and so is a frame whose
arrival falls together with the end and was taken first; any other echo being sent goes on (R146, log
entry 30). -/
def Lnk.endLoopback (l : Lnk) (osc : Nat) : Lnk :=
  let late := l.u0.justArrived osc
  { l with
    loopback := .none
    echoQueue := []
    u0 := if late then .idle else l.u0
    counters := { l.counters with
      echoDrops := satAdd l.counters.echoDrops (l.echoQueue.length + late.toNat) } }

/-- A good CONTROL frame on the echo path: it joins the echo queue, from which a free U0 sends it at once, or
is dropped (R146). -/
def State.echo (s : State) (frame : List Byte) : State :=
  if 4 ≤ s.lnk.echoQueue.length then
    s.setLnk { s.lnk with
      counters := { s.lnk.counters with echoDrops := satInc s.lnk.counters.echoDrops } }
  else if s.lnk.u0 = .idle ∧ s.lnk.echoQueue = [] then
    s.setLnk { s.lnk with u0 := .echo frame true (s.osc + laneTime frame.length) }
  else (s.setLnk { s.lnk with echoQueue := s.lnk.echoQueue ++ [frame] }).sendEcho

/-- ECHO_TRANSMISSION_COMPLETE: an echo has been sent (R146). -/
def execEchoTransmissionComplete (s : State) : Host.Outcome State Fault Refusal :=
  s.live fun s =>
    match s.lnk.u0 with
    | .echo _ _ ends =>
      let t := s.advanceTo ends
      (t.setLnk { t.lnk with
        counters := { t.lnk.counters with
          sent := satInc t.lnk.counters.sent, echoed := satInc t.lnk.counters.echoed } }).freeLane
    | _ => s

/-- LOOPBACK_TIMER_EXPIRY: the loopback has run for its duration (R146). -/
def execLoopbackTimerExpiry (s : State) : Host.Outcome State Fault Refusal :=
  s.live fun s =>
    match s.lnk.loopback with
    | .running ends =>
      let t := s.advanceTo ends
      (t.setLnk (t.lnk.endLoopback t.osc)).arbitrate
    | _ => s

/-- Link Loopback; its reply, the next to be formed, starts the loopback (R145). -/
def linkLoopback (ps : List Byte) (s : State) : Answer :=
  if ps.length ≠ 1 then s.refuse .length
  else
    match s.lnk.state, s.lnk.loopback with
    | .up, .none =>
      let d := clampNat 1 60 (field ps 0 1)
      ⟨.done, pack8 d, s.setLnk { s.lnk with loopback := .armed d s.mge.nextSerial }⟩
    | .quiet, _ => s.refuse .state
    | _, _ => s.refuse .busy

/-- LINK_LOOPBACK (R145). -/
def execLinkLoopback (tag : Byte) (ps : List Byte) (s : State) : Host.Outcome State Fault Refusal :=
  s.immediate 0x64 tag ps linkLoopback

/-! ## Entry to TRAIN (R131, R132) -/

/-- The link enters TRAIN: timer, no held word, the ability word, and U0 opens the slots (R132, R156). -/
def State.enterTrain (s : State) : State :=
  (s.setLnk { s.lnk with
    state := .train
    limit := some (s.osc + ms 100)
    heldWord := none
    sentRequest := s.lnk.ownRequest
    sentUser := s.lnk.ownUser }).sendWord.fill

/-- DOWN, no backoff running, the first load ended, signal on D0 (R131). -/
def Lnk.mayTrain (l : Lnk) : Bool :=
  decide (l.state = .down) && l.backoff.isNone && l.loaded && l.d0Signal

/-- The link enters TRAIN if it may (R131). -/
def State.tryTrain (s : State) : State := if s.lnk.mayTrain then s.enterTrain else s

/-- D0_SIGNAL_DETECT: signal appears on D0, whether or not the part is powered (R131, log entry 8). -/
def execD0SignalDetect (s : State) : Host.Outcome State Fault Refusal :=
  (s.setLnk { s.lnk with d0Signal := true }).live State.tryTrain

/-- D0_SIGNAL_LOSS: signal leaves D0; the loss itself changes nothing else (R131). -/
def execD0SignalLoss (s : State) : Host.Outcome State Fault Refusal :=
  .next (s.setLnk { s.lnk with d0Signal := false })

/-- BACKOFF_END: the backoff has run for 10 ms (R131). -/
def execBackoffEnd (s : State) : Host.Outcome State Fault Refusal :=
  s.live fun s =>
    match s.lnk.backoff with
    | none => s
    | some ends =>
      let t := s.advanceTo ends
      (t.setLnk { t.lnk with backoff := none }).tryTrain

/-! ## Entry to RECOVER (R134) -/

/-- The link's own changes at entry to RECOVER; `cut` says that a frame is in reception (R134, R137). -/
def Lnk.enterRecover (l : Lnk) (target : LaneRate) (cut : Bool) (osc : Nat) : Lnk :=
  let e := l.endLoopback osc
  { e with
    state := .recover
    target := target
    wordArrived := false
    limit := some (osc + ms 10)
    windowEnd := none
    crcTally := 0
    counters := { e.counters with
      recoveries := satInc e.counters.recoveries
      malformed := if cut && decide (l.state = .up) then satInc e.counters.malformed
        else e.counters.malformed } }

/-- The link enters RECOVER; arbitration resumes if a loopback ends (R134, R146). -/
def State.enterRecover (s : State) (target : LaneRate) (cut : Bool) : State :=
  (s.setLnk (s.lnk.enterRecover target cut s.osc)).arbitrate

/-- The rate in force, FULL where it reads NONE. -/
def Lnk.currentRate (l : Lnk) : LaneRate := l.rate.getD .full

/-- A lane's lock set or lost. -/
def State.setLock (s : State) (lane : Lane) (b : Bool) : State :=
  s.setLnk { s.lnk with locked := s.lnk.locked.set lane b }

/-- LANE_WORD_LOCK: a lane comes to word lock; in DOWN none does (R131, R132, R134). -/
def execLaneWordLock (lane : Lane) (s : State) : Host.Outcome State Fault Refusal :=
  s.live fun s => if s.lnk.state = .down then s else (s.setLock lane true).tryComplete

/-- LANE_LOCK_LOSS: a lane loses word lock; on an active lane in UP or QUIET the link enters RECOVER at
the current rate (R132, R134, R143). -/
def execLaneLockLoss (lane : Lane) (cut : Bool) (s : State) : Host.Outcome State Fault Refusal :=
  s.live fun s =>
    let t := s.setLock lane false
    if (s.lnk.state = .up ∨ s.lnk.state = .quiet) ∧ s.lnk.active[lane] = true ∧
        s.lnk.locked[lane] = true then
      t.enterRecover s.lnk.currentRate cut
    else t

/-! ## The host's ability word (R132, R134) -/

/-- A host word lists a rate and a lane. -/
def wordUsable (w : HostWord) : Bool := (w.half || w.full) && decide (w.lanes ≠ 0)

/-- The word with a lane figure above 4 taken as 4. -/
def wordHeld (w : HostWord) : HostWord := { w with lanes := if 4 < w.lanes.toNat then 4 else w.lanes }

/-- A misplaced marker or an unusable host word is counted (R148). -/
def State.protocolError (s : State) : State :=
  s.setLnk { s.lnk with
    counters := { s.lnk.counters with protocolErrors := satInc s.lnk.counters.protocolErrors } }

/-- A host word read on a locked D0 (R132, R134). -/
def State.hostWord (s : State) (w : HostWord) : State :=
  match s.lnk.state with
  | .train =>
    if wordUsable w then (s.setLnk { s.lnk with heldWord := some (wordHeld w) }).tryComplete
    else s.protocolError
  | .recover => (s.setLnk { s.lnk with wordArrived := true }).tryComplete
  | _ => s

/-- HOST_ABILITY_WORD: the host's word arrives on D0, read while D0 is locked (R132, R134). -/
def execHostAbilityWord (w : HostWord) (s : State) : Host.Outcome State Fault Refusal :=
  s.live fun s => if s.lnk.locked[0] then s.hostWord w else s

/-! ## Entry to DOWN (R135) -/

/-- The link's own changes at entry to DOWN (R135). -/
def Lnk.enterDown (l : Lnk) (osc : Nat) : Lnk :=
  let e := l.endLoopback osc
  { e with
    state := .down
    rate := none
    active := Vector.replicate 4 false
    locked := Vector.replicate 4 false
    grades := Vector.replicate 4 0
    heldWord := none
    wordArrived := false
    windowEnd := none
    crcTally := 0
    u0 := .idle
    backoff := some (osc + ms 10)
    limit := none
    downLatch := l.downLatch || decide (l.state = .recover)
    counters := { e.counters with
      trainingFailures := if l.state = .train then satInc e.counters.trainingFailures
        else e.counters.trainingFailures } }

/-- The Message Engine's emptying (R175). -/
def Mge.empty (m : Mge) : Mge :=
  { m with
    requests := [], inProgress := [], replies := [], reports := [], admitted := 0
    outstanding := false }

/-- An eye holds a FILLING slot. -/
def Fri.anyFilling (f : Fri) : Bool := f.eyes.left.filling.isSome || f.eyes.right.filling.isSome

/-- The summary bits of an entry to DOWN, judged together (R175). -/
def State.downBits (s : State) : BitVec 8 :=
  (if s.lnk.state = .recover then bitLink else 0) ||| (if s.fri.anyFilling then bitPicture else 0)

/-- The link enters DOWN (R135, R70, R161, R175, R113). -/
def State.enterDown (s : State) : State :=
  (((((s.setLnk (s.lnk.enterDown s.osc)).setFri (s.fri.mapEyes Eye.linkDown)).setRch
    s.rch.flush).setMge s.mge.empty).setAud s.aud.linkDown).setSummary s.downBits

/-- TRAINING_LIMIT_EXPIRY: TRAIN has lasted 100 ms (R132, R135). -/
def execTrainingLimitExpiry (s : State) : Host.Outcome State Fault Refusal :=
  s.live fun s =>
    match s.lnk.state, s.lnk.limit with
    | .train, some ends => (s.advanceTo ends).enterDown
    | _, _ => s

/-- RECOVERY_LIMIT_EXPIRY: RECOVER has lasted 10 ms (R134, R135). -/
def execRecoveryLimitExpiry (s : State) : Host.Outcome State Fault Refusal :=
  s.live fun s =>
    match s.lnk.state, s.lnk.limit with
    | .recover, some ends => (s.advanceTo ends).enterDown
    | _, _ => s

/-! ## Lane quality (R139 to R141) -/

def energyOf (e : Energies) : Lane → Nat
  | 0 => e.d0.toNat
  | 1 => e.d1.toNat
  | 2 => e.d2.toNat
  | 3 => e.d3.toNat

/-- How many thresholds an energy raised by `h` is below. -/
def thresholdsBelow (q : QualitySettings) (energy h : Nat) : Nat :=
  q.thresholds.toList.countP (fun t => decide (energy + h < t))

/-- A lane's grade after a window (R139). -/
def gradeAfter (q : QualitySettings) (grade energy : Nat) : Nat :=
  let target := thresholdsBelow q energy 0
  if target ≤ grade then target else max grade (thresholdsBelow q energy q.hysteresis)

/-- The link grade: the smallest grade among the active lanes. R140 works it out at each window end; the model
takes it from the grades as they stand at any moment, so that it is 7 from a completion to the first window
end after it (log entry 41, DESIGN CHOICE). -/
def Lnk.linkGrade (l : Lnk) : Nat :=
  ([0, 1, 2, 3] : List Lane).foldr (fun i g => if l.active[i] then min l.grades[i] g else g) 7

/-- The grades and worst grades after a window end (R139, R140). -/
def Lnk.grade (l : Lnk) (e : Energies) : Lnk :=
  let grades := Vector.ofFn (fun i : Lane =>
    if l.active[i] then gradeAfter l.quality l.grades[i] (energyOf e i) else l.grades[i])
  { l with
    grades := grades
    worst := Vector.ofFn (fun i : Lane =>
      if l.active[i] then min l.worst[i] grades[i] else l.worst[i]) }

/-- The link after a window end at `ends`, a fallback not yet taken (R139 to R141). -/
def Lnk.windowEnds (l : Lnk) (e : Energies) (ends : Nat) : Lnk :=
  let g := l.grade e
  { g with
    lowWindows := if g.linkGrade ≤ g.quality.fallback then min 4 (g.lowWindows + 1) else 0
    highErrorLatch := g.highErrorLatch || decide (4 ≤ g.crcTally)
    crcTally := 0
    windowEnd := some (ends + us g.quality.windowLength) }

/-- A window end in UP (R139 to R141). -/
def State.judgeWindow (s : State) (e : Energies) (cut : Bool) (ends : Nat) : State :=
  let t := s.setLnk (s.lnk.windowEnds e ends)
  let u := if 4 ≤ s.lnk.crcTally then t.setSummary bitLink else t
  if u.lnk.rate = some .full ∧ u.lnk.lowWindows = 4 then u.enterRecover .half cut else u

/-- QUALITY_WINDOW_END: a quality window ends while the link is UP (R139 to R141). -/
def execQualityWindowEnd (e : Energies) (cut : Bool) (s : State) :
    Host.Outcome State Fault Refusal :=
  s.live fun s =>
    match s.lnk.state, s.lnk.windowEnd with
    | .up, some ends => (s.advanceTo ends).judgeWindow e cut ends
    | _, _ => s

/-- A quality window length rounded down, below 128 taken as 128 (R142). -/
def qualityWindowOf (n : Nat) : Nat :=
  if 1024 ≤ n then 1024 else if 512 ≤ n then 512 else if 256 ≤ n then 256 else 128

/-- The seven thresholds of a Set Link Quality. -/
def thresholdsOf (ps : List Byte) : Vector Nat 7 :=
  Vector.ofFn (fun i : Fin 7 => field ps (2 + 2 * i.val) 2)

/-- The thresholds are in range and strictly decreasing (R142). -/
def thresholdsOk (t : Vector Nat 7) : Bool :=
  t.toList.all (fun x => decide (x ≤ 1023)) &&
    ([0, 1, 2, 3, 4, 5] : List (Fin 6)).all (fun i => decide (t[i.val + 1] < t[i.val]))

def QualitySettings.fields (q : QualitySettings) : List Byte :=
  pack16 q.windowLength ++ (q.thresholds.toList.map pack16).flatten ++ pack8 q.hysteresis ++
    pack8 q.fallback

/-- The link with new quality settings (R142). -/
def Lnk.setQuality (l : Lnk) (q : QualitySettings) (osc : Nat) : Lnk :=
  if q.windowLength = l.quality.windowLength then { l with quality := q }
  else
    { l with
      quality := q
      lowWindows := 0
      crcTally := 0
      windowEnd := if l.state = .up then some (osc + us q.windowLength) else none }

/-- Set Link Quality (R142). -/
def setLinkQuality (ps : List Byte) (s : State) : Answer :=
  if ps.length ≠ 18 then s.refuse .length
  else if thresholdsOk (thresholdsOf ps) then
    let q : QualitySettings :=
      ⟨qualityWindowOf (field ps 0 2), thresholdsOf ps, min (field ps 16 1) 63, min (field ps 17 1) 6⟩
    ⟨.done, q.fields, s.setLnk (s.lnk.setQuality q s.osc)⟩
  else s.refuse .range

/-- SET_LINK_QUALITY (R142). -/
def execSetLinkQuality (tag : Byte) (ps : List Byte) (s : State) :
    Host.Outcome State Fault Refusal := s.immediate 0x62 tag ps setLinkQuality

/-! ## Quiet idle (R143) -/

/-- The link's own changes at entry to QUIET (R143). -/
def Lnk.enterQuiet (l : Lnk) (cut : Bool) (osc : Nat) : Lnk :=
  let e := l.endLoopback osc
  { e with
    state := .quiet
    quietLatch := true
    windowEnd := none
    crcTally := 0
    counters := { e.counters with
      malformed := if cut then satInc e.counters.malformed else e.counters.malformed } }

/-- QUIET_MARKER: the host sends a quiet marker on D0; it is read in UP and QUIET (R143). -/
def execQuietMarker (cut : Bool) (s : State) : Host.Outcome State Fault Refusal :=
  s.live fun s =>
    if s.lnk.state = .up then
      if s.lnk.partner.any HostWord.quiet then (s.setLnk (s.lnk.enterQuiet cut s.osc)).arbitrate
      else s.protocolError
    else s

/-- WAKE_MARKER: the host sends a wake marker on D0; it is read in UP and QUIET (R143). -/
def execWakeMarker (s : State) : Host.Outcome State Fault Refusal :=
  s.live fun s =>
    match s.lnk.state with
    | .quiet =>
      s.setLnk { s.lnk with
        state := .up
        lowWindows := 0
        crcTally := 0
        windowEnd := some (s.osc + us s.lnk.quality.windowLength) }
    | .up => s.protocolError
    | _ => s

/-! ## Link Retrain (R144) -/

def laneRateOfCode : Nat → Option LaneRate
  | 1 => some .half
  | 2 => some .full
  | _ => none

/-- A Link Retrain can be taken: QUIET, or UP with no loopback armed or running (R144). -/
def Lnk.mayRetrain (l : Lnk) : Bool :=
  decide (l.state = .quiet) || (decide (l.state = .up) && decide (l.loopback = .none))

/-- Link Retrain; `cut` says that a frame is in reception (R144). -/
def linkRetrain (cut : Bool) (ps : List Byte) (s : State) : LongAnswer :=
  if ps.length ≠ 1 then .answered (s.refuse .length)
  else
    match laneRateOfCode (field ps 0 1) with
    | none => .answered (s.refuse .range)
    | some r =>
      if s.lnk.mayRetrain then
        .started .link ((s.setLnk { s.lnk with preferred := r }).enterRecover r cut)
      else .answered (s.refuse .busy)

/-- LINK_RETRAIN (R144). -/
def execLinkRetrain (tag : Byte) (ps : List Byte) (cut : Bool) (s : State) :
    Host.Outcome State Fault Refusal := s.long 0x63 tag ps (linkRetrain cut)

/-! ## Status and counters (R147, R148) -/

/-- Several free bytes (log entry 11). -/
def State.takeFrees : Nat → State → List Byte × State
  | 0, s => ([], s)
  | n + 1, s =>
    let r := takeFrees n s.takeFree.2
    (s.takeFree.1 :: r.1, r.2)

/-- A lane in Read Link Status (R147). -/
def Lnk.laneFields (l : Lnk) (i : Lane) : List Byte :=
  packFlag l.locked[i] ++ pack8 l.grades[i] ++ pack8 l.worst[i]

/-- The loopback time remaining in ms (R147, log entry 32). -/
def Lnk.remaining (l : Lnk) (osc : Nat) : Nat :=
  match l.loopback with
  | .running ends =>
    (ends - osc) / ms 1 +
      (if (ends - osc) % ms 1 ≠ 0 ∧ Config.remainderUp (ends - osc) = true then 1 else 0)
  | _ => 0

/-- The partner's rates: bit 0 HALF, bit 1 FULL (12.4). -/
def ratesCode (w : HostWord) : Nat := w.half.toNat + 2 * w.full.toNat

/-- The partner fields of Read Link Status, free values while there is no partner word (R147). -/
def State.partnerFields (s : State) : List Byte × State :=
  match s.lnk.partner with
  | some w =>
    ([1] ++ pack8 (ratesCode w) ++ [w.lanes] ++ packFlag w.quiet ++
      pack8 (s.lnk.grantReceived.getD 0) ++ pack8 (s.lnk.grantApplied.getD 0) ++ [w.user], s)
  | none =>
    let r := s.takeFrees 6
    ([0] ++ r.1, r.2)

/-- The reply fields of Read Link Status up to the partner's (R147). -/
def Lnk.headFields (l : Lnk) : List Byte :=
  pack8 l.state.code ++ pack8 (rateCode l.rate) ++ pack8 l.preferred.code ++
    pack8 (countLanes l.active) ++ pack8 (laneSetCode l.active) ++ l.laneFields 0 ++ l.laneFields 1 ++
    l.laneFields 2 ++ l.laneFields 3 ++
    pack8 (if l.state = .up ∨ l.state = .quiet then l.linkGrade else 0) ++ pack8 l.lowWindows ++
    packFlag l.downLatch ++ packFlag l.highErrorLatch ++ packFlag l.quietLatch

/-- The reply fields of Read Link Status after the partner's (R147). -/
def Lnk.tailFields (l : Lnk) (osc : Nat) : List Byte :=
  pack8 l.ownRequest ++ [l.ownUser] ++ pack8 l.loopback.code ++ pack16 (l.remaining osc) ++
    packTime l.latestUp ++ pack16 l.quality.windowLength ++ pack8 l.quality.hysteresis ++
    pack8 l.quality.fallback ++ (l.quality.thresholds.toList.map pack16).flatten

/-- The latches cleared and the worst grades set back (R147). -/
def Lnk.readStatus (l : Lnk) : Lnk :=
  { l with
    downLatch := false
    highErrorLatch := false
    quietLatch := false
    worst := Vector.ofFn (fun i : Lane => if l.active[i] then l.grades[i] else 7) }

/-- Read Link Status (R147). -/
def readLinkStatus (ps : List Byte) (s : State) : Answer :=
  if ps.length ≠ 0 then s.refuse .length
  else
    let p := s.partnerFields
    ⟨.done, s.lnk.headFields ++ p.1 ++ s.lnk.tailFields s.osc, p.2.setLnk s.lnk.readStatus⟩

/-- READ_LINK_STATUS (R147). -/
def execReadLinkStatus (tag : Byte) (ps : List Byte) (s : State) :
    Host.Outcome State Fault Refusal := s.immediate 0x60 tag ps readLinkStatus

def LinkCounters.fields (c : LinkCounters) : List Byte :=
  packCount32 c.good ++ packCount32 c.crcFailures ++ packCount32 c.malformed ++ packCount32 c.sent ++
    packCount32 c.trainingFailures ++ packCount32 c.recoveries ++ packCount32 c.protocolErrors ++
    packCount32 c.echoed ++ packCount32 c.echoDrops

/-- The nine link counters set to 0 (R148). -/
def Lnk.clearCounters (l : Lnk) : Lnk := { l with counters := ⟨0, 0, 0, 0, 0, 0, 0, 0, 0⟩ }

/-- Read Link Counters (R148). -/
def readLinkCounters (ps : List Byte) (s : State) : Answer :=
  if ps.length ≠ 1 then s.refuse .length
  else
    ⟨.done, s.lnk.counters.fields,
      if flagField ps 0 then s.setLnk s.lnk.clearCounters else s⟩

/-- READ_LINK_COUNTERS (R148). -/
def execReadLinkCounters (tag : Byte) (ps : List Byte) (s : State) :
    Host.Outcome State Fault Refusal := s.immediate 0x61 tag ps readLinkCounters

/-! ## Resets (R149) -/

/-- Hub Reset at the link: a loopback still ARMED ends, all else is kept (R149). -/
def Lnk.hubReset (l : Lnk) : Lnk :=
  match l.loopback with
  | .armed _ _ => { l with loopback := .none }
  | _ => l

end Sys2Proof.Machine
end

