-- ==== Sys2Proof/Machine/Store.lean ====
section
/-! DEFINITION. The Calibration Store (chapter 11): pages and records, loading, erase, program, its
requests. -/

namespace Sys2Proof.Machine

/-! ## Pages and records (R177) -/

/-- The bytes of a page. -/
def pageBytes (m : StoreMemory) (page : Nat) : List Byte := storeBytes m (page * pageSize) pageSize

/-- All bytes of a page are 0xFF. -/
def pageBlank (m : StoreMemory) (page : Nat) : Bool :=
  (pageBytes m page).all (fun b => decide (b = blankByte))

/-- The 16-bit sum of bytes. -/
def byteSum (bs : List Byte) : Nat := (bs.map BitVec.toNat).sum % 65536

/-- A page's bytes make it valid: its check word is right and it is not entirely 0xFF (R177). -/
def bytesValid (bs : List Byte) : Bool :=
  decide (byteSum (bs.take 1022) = field bs 1022 2) && bs.any (fun b => decide (b ≠ blankByte))

/-- A record: its type code and content. -/
structure StoreRecord where
  code : Byte
  content : List Byte
  deriving DecidableEq, Repr

/-- The records of a record region; at most `n` are walked (R177, log entry 24). -/
def walkRecords : Nat → List Byte → List StoreRecord
  | 0, _ => []
  | n + 1, t :: len :: rest =>
    if t = 0xFF then []
    else if rest.length < len.toNat then []
    else ⟨t, rest.take len.toNat⟩ :: walkRecords n (rest.drop len.toNat)
  | _ + 1, _ => []

/-- The records of a page. -/
def pageRecords (m : StoreMemory) (page : Nat) : List StoreRecord :=
  walkRecords 511 ((pageBytes m page).take 1022)

def RecordType.code : RecordType → Byte
  | .ident => 1
  | .sensor => 2
  | .axis => 3
  | .panel => 4
  | .throttle => 5
  | .filter => 6
  | .power => 7
  | .schedule => 8
  | .wear => 9

/-- A page is valid at a load: its bytes alone say so (R177). -/
def Cst.pageValid (c : Cst) (page : Fin 8) : Bool := bytesValid (pageBytes c.array page)

/-- The last record of a type in a page. -/
def Cst.lastIn (c : Cst) (page : Fin 8) (t : RecordType) : Option (List Byte) :=
  (((pageRecords c.array page).filter (fun r => decide (r.code = t.code))).getLast?).map
    StoreRecord.content

/-- The winning record of a type and its page: the last in the highest-numbered valid page that holds
the type (R178). -/
def Cst.winner (c : Cst) (t : RecordType) : Option (Fin 8 × List Byte) :=
  ([7, 6, 5, 4, 3, 2, 1, 0] : List (Fin 8)).findSome? fun p =>
    if c.pageValid p then (c.lastIn p t).map (fun content => (p, content)) else none

/-! ## The owners' judgements (R178, log entry 26)

Each answers what its block takes from a record, or none where the block takes its built-in defaults
in place of it. -/

/-- A record of one length only. -/
def ofLength {α : Type} (n : Nat) (f : List Byte → Option α) (content : List Byte) : Option α :=
  if content.length = n then f content else none

/-- IDENT: serial number (R172). -/
def takeIdentRecord : List Byte → Option (BitVec 32) :=
  ofLength 5 fun r => some (BitVec.ofNat 32 (field r 0 4))

/-- A channel's entry of SENSOR; a gain out of range leaves the channel at its defaults (R39). -/
def sensorEntry (r : List Byte) (i : Nat) : Calibration :=
  if gainOk (field r (4 * i + 2) 2) then ⟨toSigned16 (field r (4 * i) 2), field r (4 * i + 2) 2⟩
  else Calibration.default

/-- SENSOR (R39). -/
def takeSensorRecord : List Byte → Option (PerChannel Calibration) :=
  ofLength 32 fun r => some
    ⟨sensorEntry r 0, sensorEntry r 1, sensorEntry r 2, sensorEntry r 3, sensorEntry r 4,
      sensorEntry r 5, sensorEntry r 6, sensorEntry r 7⟩

/-- An entry of AXIS (R41). -/
def axisEntry (source sign : Nat) : Option AxisSource :=
  (rateChannelOfCode source).bind fun c =>
    if sign = 0x01 then some ⟨c, false⟩ else if sign = 0xFF then some ⟨c, true⟩ else none

/-- AXIS, whole or not at all (R41). -/
def takeAxisRecord : List Byte → Option AxisMap :=
  ofLength 6 fun r =>
    match axisEntry (field r 0 1) (field r 1 1), axisEntry (field r 2 1) (field r 3 1),
      axisEntry (field r 4 1) (field r 5 1) with
    | some y, some p, some l =>
      if y.source ≠ p.source ∧ y.source ≠ l.source ∧ p.source ≠ l.source then some ⟨y, p, l⟩ else none
    | _, _, _ => none

/-- PANEL, its values clamped (R91). -/
def takePanelRecord : List Byte → Option Geometry :=
  ofLength 6 fun r => some (geometryOf (field r 0 2) (field r 2 2) (field r 4 2))

/-- A row of THROTTLE (R124). -/
def throttleRow (r : List Byte) (i : Nat) : Option ThrottleRow :=
  if field r (5 * i) 2 ≤ 1023 then
    (SampleRate.exact (field r (5 * i + 3) 2)).map fun rate =>
      ⟨field r (5 * i) 2, field r (5 * i + 2) 1, rate⟩
  else none

/-- THROTTLE, whole or not at all (R124). -/
def takeThrottleRecord : List Byte → Option (Vector ThrottleRow 4) :=
  ofLength 20 fun r =>
    match throttleRow r 0, throttleRow r 1, throttleRow r 2, throttleRow r 3 with
    | some a, some b, some c, some d =>
      if rowsOrdered #v[a, b, c, d] then some #v[a, b, c, d] else none
    | _, _, _, _ => none

/-- An entry of FILTER (R151). -/
def filterEntryAt (r : List Byte) (i : Nat) : Option FilterEntry :=
  filterEntryOf (flagField r (6 * i)) (field r (6 * i + 1) 2) (field r (6 * i + 3) 2)
    (field r (6 * i + 5) 1)

/-- FILTER, whole or not at all (R151). -/
def takeFilterRecord : List Byte → Option (Vector FilterEntry 8) :=
  ofLength 48 fun r =>
    match filterEntryAt r 0, filterEntryAt r 1, filterEntryAt r 2, filterEntryAt r 3,
      filterEntryAt r 4, filterEntryAt r 5, filterEntryAt r 6, filterEntryAt r 7 with
    | some a, some b, some c, some d, some e, some f, some g, some h =>
      if hasControl #v[a, b, c, d, e, f, g, h] then some #v[a, b, c, d, e, f, g, h] else none
    | _, _, _, _, _, _, _, _ => none

/-- The default Channel Filter Table (9.1.2). -/
def Cfl.defaultEntries : Vector FilterEntry 8 :=
  #v[⟨true, 0x000, 0xFFF, .control, 0⟩, ⟨true, 0x001, 0xFFF, .time, 0⟩,
    ⟨true, 0x010, 0xFFF, .pictureL, 0⟩, ⟨true, 0x011, 0xFFF, .pictureR, 0⟩,
    ⟨true, 0x020, 0xFFF, .audio, 0⟩, ⟨false, 0, 0, .discard, 0⟩, ⟨false, 0, 0, .discard, 0⟩,
    ⟨false, 0, 0, .discard, 0⟩]

/-- What POWER carries (R132, R125). -/
structure PowerRecord where
  request : Nat
  user : Byte
  hysteresis : Nat
  windowLength : Nat
  deriving DecidableEq, Repr

/-- The built-in defaults in place of POWER (R132, R125). -/
def PowerRecord.default : PowerRecord := ⟨40, 0, 500, 64⟩

/-- POWER, its values clamped and rounded (R132, R125). -/
def takePowerRecord : List Byte → Option PowerRecord :=
  ofLength 5 fun r => some
    ⟨clampNat 8 80 (field r 0 1), r.getD 1 0, min (field r 2 2) 1500, windowLengthOf (field r 4 1)⟩

/-- What SCHEDULE carries (R39). -/
structure ScheduleRecord where
  rate : SampleRate
  slots : List SensorSlot
  deriving DecidableEq, Repr

/-- The built-in defaults in place of SCHEDULE (2.2, R23). -/
def ScheduleRecord.default : ScheduleRecord := ⟨.hz1000, Smp.defaultSlots⟩

/-- SCHEDULE; a list that fails the checks of R21 falls back to the default list (R39). -/
def takeScheduleRecord (r : List Byte) : Option ScheduleRecord :=
  if 3 ≤ r.length ∧ r.length = 3 + 3 * field r 2 1 then
    some ⟨SampleRate.roundDown (field r 0 2),
      (slotListOf (field r 2 1) (r.drop 3)).getD Smp.defaultSlots⟩
  else none

/-- What WEAR carries (R39, R125). -/
structure WearRecord where
  settings : WearSettings
  stillEmission : Nat
  deriving DecidableEq, Repr

/-- The built-in defaults in place of WEAR (R32 to R34, R125). -/
def WearRecord.default : WearRecord := ⟨WearSettings.default, 256⟩

/-- WEAR, its values clamped (R39, R125). -/
def takeWearRecord : List Byte → Option WearRecord :=
  ofLength 12 fun r => some
    ⟨⟨field r 0 2, field r 2 2, clampNat 1 600 (field r 4 2), toSigned16 (field r 6 2),
      min (field r 8 2) 32767⟩, min (field r 10 2) 1023⟩

/-! ## Loading (R178, R179) -/

/-- What a block takes of a type: the winning record as its owner judges it, or the defaults. -/
def Cst.taken {α : Type} (c : Cst) (t : RecordType) (judge : List Byte → Option α) (default : α) : α :=
  ((c.winner t).bind fun w => judge w.2).getD default

/-- The store map's entry of a type (R178). -/
def Cst.mapEntry {α : Type} (c : Cst) (t : RecordType) (judge : List Byte → Option α) : MapEntry :=
  match c.winner t with
  | none => ⟨none, false⟩
  | some w => ⟨some w.1.val, (judge w.2).isSome⟩

/-- The store map of a load (R178). -/
def Cst.mapOf (c : Cst) : StoreMap where
  valid := Vector.ofFn c.pageValid
  ident := c.mapEntry .ident takeIdentRecord
  sensor := c.mapEntry .sensor takeSensorRecord
  axis := c.mapEntry .axis takeAxisRecord
  panel := c.mapEntry .panel takePanelRecord
  throttle := c.mapEntry .throttle takeThrottleRecord
  filter := c.mapEntry .filter takeFilterRecord
  power := c.mapEntry .power takePowerRecord
  schedule := c.mapEntry .schedule takeScheduleRecord
  wear := c.mapEntry .wear takeWearRecord

/-- The boundary that an IDENT record's content gives (R179). -/
def boundaryOf (r : List Byte) : Nat := if r.length = 5 then min 8 (field r 4 1) else 0

/-- The protect boundary of a load, from page 0 (R179). -/
def Cst.boundaryLoaded (c : Cst) : Nat :=
  if c.pageValid 0 then ((c.lastIn 0 .ident).map boundaryOf).getD 0 else 0

/-- The store after a load's end (R178, R179, R172). -/
def Cst.endLoad (c : Cst) : Cst :=
  { c with
    op := .idle
    map := c.mapOf
    boundary := c.boundaryLoaded
    serialNumber := c.taken .ident takeIdentRecord 0
    loads := satInc c.loads }

/-- The Sampler at a load's end: its records, and the first tick due at that moment (R39, R25). The model's
choice is that the row SAMPLING_TICK takes that tick, as it takes every tick, and STORE_LOAD_END does not take
it inside its own event (log entry 42, DESIGN CHOICE). -/
def Smp.load (m : Smp) (c : Cst) (osc : Nat) : Smp :=
  let sch := c.taken .schedule takeScheduleRecord .default
  { m with
    calibration := c.taken .sensor takeSensorRecord (.const Calibration.default)
    slotList := sch.slots
    requestedRate := sch.rate
    settings := (c.taken .wear takeWearRecord .default).settings
    reporting := true
    batchSize := 1
    batch := []
    tickDue := if sch.slots.isEmpty then none else some osc }

/-- The Power Manager at a load's end: its records, and an empty window (R118, R124, R125). -/
def Pmg.load (p : Pmg) (c : Cst) : Pmg :=
  let pw := c.taken .power takePowerRecord .default
  { p with
    rows := c.taken .throttle takeThrottleRecord Pmg.defaultRows
    hysteresis := pw.hysteresis
    windowLength := pw.windowLength
    stillEmission := (c.taken .wear takeWearRecord .default).stillEmission
    window := some ⟨0, 0⟩ }

/-- The Channel Filter at a load's end; the counts go on (R151, log entry 23). -/
def Cfl.load (f : Cfl) (c : Cst) : Cfl :=
  let es := c.taken .filter takeFilterRecord Cfl.defaultEntries
  { f with entries := Vector.ofFn fun i : Fin 8 => { es[i] with hits := f.entries[i].hits } }

/-- The Tether Link at a load's end (R131, R132). -/
def Lnk.load (l : Lnk) (c : Cst) : Lnk :=
  let pw := c.taken .power takePowerRecord .default
  { l with ownRequest := pw.request, ownUser := pw.user, loaded := true }

/-- The Serial Audio Port starts at the end of the first load (R184). No rule says when its first input frame
passes: the model puts it one frame period after the start, so that input and output frames share the same
points of the cadence (log entry 43, DESIGN CHOICE). -/
def Aud.load (a : Aud) (osc : Nat) : Aud :=
  match a.portStart with
  | none => { a with portStart := some osc, lastInput := osc }
  | some _ => a

/-- The end of a load: every winning record passes to its block in one event, and the link may leave
DOWN (R178, R184). -/
def State.endLoad (s : State) : State :=
  ({ s with
    smp := s.smp.load s.cst s.osc
    ori := { s.ori with axisMap := s.cst.taken .axis takeAxisRecord AxisMap.default }
    sco := { s.sco with geometry := s.cst.taken .panel takePanelRecord Geometry.default }
    aud := s.aud.load s.osc
    pmg := s.pmg.load s.cst
    lnk := s.lnk.load s.cst
    cfl := s.cfl.load s.cst
    cst := s.cst.endLoad } : State).updateCap.tryTrain

/-- STORE_LOAD_END: a load ends 5 ms after it began (R178). -/
def execStoreLoadEnd (s : State) : Host.Outcome State Fault Refusal :=
  s.live fun s =>
    match s.cst.op with
    | .loading ends => (s.advanceTo ends).endLoad
    | _ => s

/-! ## Erase and program (R180, R181) -/

/-- A store request is refused: counted, and STORE set (R180). No rule orders STORE, with the Attention report
it may hand over and place, and the forming of the refusal's reply: the model sets STORE first (log entry 21,
DESIGN CHOICE). -/
def State.refuseStore (s : State) (status : Status) : Answer :=
  ⟨status, [],
    (s.setCst { s.cst with refusals := satInc s.cst.refusals }).setSummary bitStore⟩

/-- Erase Page (R181). -/
def erasePage (ps : List Byte) (s : State) : LongAnswer :=
  if ps.length ≠ 1 then .answered (s.refuseStore .length)
  else if 7 < field ps 0 1 then .answered (s.refuseStore .range)
  else if s.cst.op ≠ .idle then .answered (s.refuseStore .busy)
  else if field ps 0 1 < s.cst.boundary then .answered (s.refuseStore .isProtected)
  else .started .store (s.setCst { s.cst with op := .erasing (field ps 0 1) (s.osc + ms 20) })

/-- ERASE_PAGE (R181). -/
def execErasePage (tag : Byte) (ps : List Byte) (s : State) : Host.Outcome State Fault Refusal :=
  s.long 0x78 tag ps erasePage

/-- Every target byte of a program is 0xFF (R181 check 5). -/
def targetBlank (m : StoreMemory) (page offset count : Nat) : Bool :=
  (storeBytes m (page * pageSize + offset) count).all (fun b => decide (b = blankByte))

/-- Program Store (R181). -/
def programStore (ps : List Byte) (s : State) : LongAnswer :=
  let page := field ps 0 1
  let offset := field ps 1 2
  let count := field ps 3 1
  if ps.length ≠ 4 + count then .answered (s.refuseStore .length)
  else if 7 < page ∨ count = 0 ∨ 64 < count ∨ pageSize < offset + count then
    .answered (s.refuseStore .range)
  else if s.cst.op ≠ .idle then .answered (s.refuseStore .busy)
  else if page < s.cst.boundary then .answered (s.refuseStore .isProtected)
  else if targetBlank s.cst.array page offset count then
    .started .store
      (s.setCst { s.cst with op := .programming page offset (ps.drop 4) (s.osc + ms 1) })
  else .answered (s.refuseStore .notBlank)

/-- PROGRAM_STORE (R181). -/
def execProgramStore (tag : Byte) (ps : List Byte) (s : State) : Host.Outcome State Fault Refusal :=
  s.long 0x79 tag ps programStore

/-- The request holds the store. -/
def InProgress.holdsStore (e : InProgress) : Bool := decide (e.resource = .store)

/-- The operation state after an erase or program: a load that a Hub Reset is owed begins (R178,
R180). -/
def Cst.nextOp (c : Cst) (osc : Nat) : StoreOp := if c.loadOwed then .loading (osc + ms 5) else .idle

/-- An erase or program ends: the store as given, STORE set, the reply formed (R180). -/
def State.endOp (s : State) (c : Cst) (fields : List Byte) : State :=
  ((s.setCst { c with op := c.nextOp s.osc, loadOwed := false }).setSummary bitStore).finish
    InProgress.holdsStore .done fun _ _ => fields

/-- The store with a page erased (R181). -/
def Cst.erased (c : Cst) (page : Nat) : Cst :=
  { c with
    array := storeErase c.array page
    erases := satInc c.erases }

/-- ERASE_END: an erase has run for 20 ms (R180, R181). -/
def execEraseEnd (s : State) : Host.Outcome State Fault Refusal :=
  s.live fun s =>
    match s.cst.op with
    | .erasing page ends => (s.advanceTo ends).endOp (s.cst.erased page) (pack8 page)
    | _ => s

/-- The store with its target bytes programmed (R181). -/
def Cst.programmed (c : Cst) (page offset : Nat) (data : List Byte) : Cst :=
  { c with
    array := storeWriteAll c.array (page * pageSize + offset) data
    programs := satInc c.programs }

/-- PROGRAM_END: a program has run for 1 ms (R180, R181). -/
def execProgramEnd (s : State) : Host.Outcome State Fault Refusal :=
  s.live fun s =>
    match s.cst.op with
    | .programming page offset data ends =>
      (s.advanceTo ends).endOp (s.cst.programmed page offset data)
        (pack8 page ++ pack16 offset ++ pack8 data.length)
    | _ => s

/-! ## Immediate kinds (R179, R182, R183) -/

/-- Read Store (R182). -/
def readStore (ps : List Byte) (s : State) : Answer :=
  let page := field ps 0 1
  let offset := field ps 1 2
  let count := field ps 3 2
  if ps.length ≠ 5 then s.refuseStore .length
  else if 7 < page ∨ count = 0 ∨ 256 < count ∨ pageSize < offset + count then s.refuseStore .range
  else if s.cst.op ≠ .idle then s.refuseStore .busy
  else
    ⟨.done,
      pack8 page ++ pack16 offset ++ pack16 count ++
        storeBytes s.cst.array (page * pageSize + offset) count, s⟩

/-- READ_STORE (R182). -/
def execReadStore (tag : Byte) (ps : List Byte) (s : State) : Host.Outcome State Fault Refusal :=
  s.immediate 0x7A tag ps readStore

/-- Blank Check (R182). -/
def blankCheck (ps : List Byte) (s : State) : Answer :=
  if ps.length ≠ 1 then s.refuseStore .length
  else if 7 < field ps 0 1 then s.refuseStore .range
  else if s.cst.op ≠ .idle then s.refuseStore .busy
  else ⟨.done, pack8 (field ps 0 1) ++ packFlag (pageBlank s.cst.array (field ps 0 1)), s⟩

/-- BLANK_CHECK (R182). -/
def execBlankCheck (tag : Byte) (ps : List Byte) (s : State) : Host.Outcome State Fault Refusal :=
  s.immediate 0x7B tag ps blankCheck

/-- Set Protect Boundary (R179). -/
def setProtectBoundary (ps : List Byte) (s : State) : Answer :=
  if ps.length ≠ 1 then s.refuseStore .length
  else if 8 < field ps 0 1 then s.refuseStore .range
  else if s.cst.op ≠ .idle then s.refuseStore .busy
  else if field ps 0 1 < s.cst.boundary then s.refuseStore .isProtected
  else ⟨.done, pack8 (field ps 0 1), s.setCst { s.cst with boundary := field ps 0 1 }⟩

/-- SET_PROTECT_BOUNDARY (R179). -/
def execSetProtectBoundary (tag : Byte) (ps : List Byte) (s : State) :
    Host.Outcome State Fault Refusal := s.immediate 0x7C tag ps setProtectBoundary

def MapEntry.fields (e : MapEntry) : List Byte := pack8 (e.page.getD 0xFF) ++ packFlag e.taken

/-- The reply fields of Read Store Map (R183). -/
def Cst.mapFields (c : Cst) : List Byte :=
  (c.map.valid.toList.map packFlag).flatten ++ c.map.ident.fields ++ c.map.sensor.fields ++
    c.map.axis.fields ++ c.map.panel.fields ++ c.map.throttle.fields ++ c.map.filter.fields ++
    c.map.power.fields ++ c.map.schedule.fields ++ c.map.wear.fields ++ pack8 c.boundary ++
    pack8 c.op.code ++ packCount c.loads ++ packCount c.erases ++ packCount c.programs ++
    packCount c.refusals

/-- The four counts of the store set to 0 (R183). -/
def Cst.clearCounters (c : Cst) : Cst := { c with loads := 0, erases := 0, programs := 0, refusals := 0 }

/-- Read Store Map (R183). -/
def readStoreMap (ps : List Byte) (s : State) : Answer :=
  if ps.length ≠ 1 then s.refuseStore .length
  else ⟨.done, s.cst.mapFields, if flagField ps 0 then s.setCst s.cst.clearCounters else s⟩

/-- READ_STORE_MAP (R183). -/
def execReadStoreMap (tag : Byte) (ps : List Byte) (s : State) :
    Host.Outcome State Fault Refusal := s.immediate 0x7D tag ps readStoreMap

/-! ## Hub Reset and power loss (R178, R180) -/

/-- Hub Reset at the store: its load begins, or is owed while an erase or program runs (R178). -/
def Cst.hubReset (c : Cst) (osc : Nat) : Cst :=
  match c.op with
  | .erasing _ _ => { c with loadOwed := true }
  | .programming _ _ _ _ => { c with loadOwed := true }
  | _ => { c with op := .loading (osc + ms 5) }

/-- `n` free bytes written from an address up (log entry 7). -/
def State.scramble (s : State) : Nat → Nat → State
  | _, 0 => s
  | a, n + 1 =>
    (s.takeFree.2.setCst { s.cst with array := storeWrite s.cst.array a s.takeFree.1 }).scramble
      (a + 1) n

/-- The byte at an address becomes a free one of the 255 other values (log entry 7). -/
def State.alter (s : State) (a : Nat) : State :=
  s.takeFree.2.setCst { s.cst with
    array := storeWrite s.cst.array a (storeRead s.cst.array a + 1 + s.takeFree.1 % 255) }

/-- A write of `n` bytes of a page, from an address up, is cut: the bytes hold free values with which the
page fails its check. Where those drawn would pass it the first is altered, and a page that one altered byte
parts from a valid one is not valid (R180, log entry 7). -/
def State.cutWrite (s : State) (page a n : Nat) : State :=
  let t := s.scramble a n
  if bytesValid (pageBytes t.cst.array page) then t.alter a else t

/-- Loss of power cuts an erase or program (R180). -/
def State.cutOp (s : State) : State :=
  match s.cst.op with
  | .erasing page _ => s.cutWrite page (page * pageSize) pageSize
  | .programming page offset data _ => s.cutWrite page (page * pageSize + offset) data.length
  | _ => s

end Sys2Proof.Machine
end

