-- ==== Sys2Proof/Machine/Messages.lean ====
section
/-! DEFINITION. The Message Engine's own requests, Function Clear, Hub Reset, completion of a
transmission, power-on and power loss (chapters 10 and 11). -/

namespace Sys2Proof.Machine

/-! ## Identify, summary and enables (R169 to R172) -/

/-- Identify (R172). -/
def identify (ps : List Byte) (s : State) : Answer :=
  if ps.length ≠ 0 then s.refuse .length
  else
    ⟨.done, pack16 Config.partCode ++ pack8 Config.revision ++ pack32 s.cst.serialNumber.toNat, s⟩

/-- IDENTIFY (R172). -/
def execIdentify (tag : Byte) (ps : List Byte) (s : State) : Host.Outcome State Fault Refusal :=
  s.immediate 0x70 tag ps identify

/-- The four counts of the Message Engine set to 0 (R171). -/
def Mge.clearCounters (m : Mge) : Mge :=
  { m with overruns := 0, protocolErrors := 0, malformed := 0, reportDrops := 0 }

/-- The reply fields of Read Summary (R171). -/
def Mge.fields (m : Mge) : List Byte :=
  pack8 m.summary.toNat ++ pack8 m.mask.toNat ++ packFlag m.outstanding ++ pack8 m.admitted ++
    packCount m.overruns ++ packCount m.protocolErrors ++ packCount m.malformed ++
    packCount m.reportDrops

/-- Read Summary; the summary and the outstanding flag are cleared in any case (R171). -/
def readSummary (ps : List Byte) (s : State) : Answer :=
  if ps.length ≠ 1 then s.refuse .length
  else
    let m := { s.mge with summary := 0, outstanding := false }
    ⟨.done, s.mge.fields, s.setMge (if flagField ps 0 then m.clearCounters else m)⟩

/-- READ_SUMMARY (R171). -/
def execReadSummary (tag : Byte) (ps : List Byte) (s : State) : Host.Outcome State Fault Refusal :=
  s.immediate 0x71 tag ps readSummary

/-- Set Attention Enable (R170). -/
def setAttentionEnable (ps : List Byte) (s : State) : Answer :=
  if ps.length ≠ 1 then s.refuse .length
  else ⟨.done, ps, s.setMge { s.mge with mask := ps.headD 0 }⟩

/-- SET_ATTENTION_ENABLE (R170). -/
def execSetAttentionEnable (tag : Byte) (ps : List Byte) (s : State) :
    Host.Outcome State Fault Refusal := s.immediate 0x72 tag ps setAttentionEnable

def ReportEnables.fields (e : ReportEnables) : List Byte :=
  packFlag e.refresh ++ packFlag e.link ++ packFlag e.power ++ packFlag e.timeStep ++
    packFlag e.actionDone ++ packFlag e.presence

/-- Set Report Enable (R169). -/
def setReportEnable (ps : List Byte) (s : State) : Answer :=
  if ps.length ≠ 6 then s.refuse .length
  else
    let e : ReportEnables :=
      ⟨flagField ps 0, flagField ps 1, flagField ps 2, flagField ps 3, flagField ps 4, flagField ps 5⟩
    ⟨.done, e.fields, s.setMge { s.mge with enables := e }⟩

/-- SET_REPORT_ENABLE (R169). -/
def execSetReportEnable (tag : Byte) (ps : List Byte) (s : State) :
    Host.Outcome State Fault Refusal := s.immediate 0x73 tag ps setReportEnable

/-- REQUEST_UNKNOWN_KIND: a request whose code names no kind is answered UNKNOWN (R166); a code that
names one is not this row's. -/
def execRequestUnknownKind (kind tag : Byte) (ps : List Byte) (s : State) :
    Host.Outcome State Fault Refusal :=
  if isRequestKind kind then .next s
  else s.immediate kind tag ps fun _ t => t.refuse .unknown

/-! ## Function Clear (R174) -/

/-- The request names a Function Clear target that is not this row's (log entry 20). -/
def namesOther (own : Nat) (ps : List Byte) : Bool :=
  decide (ps.length = 1) && decide (1 ≤ field ps 0 1) && decide (field ps 0 1 ≤ 5) &&
    decide (field ps 0 1 ≠ own)

/-- Function Clear of one target (R174). -/
def functionClear (own : Nat) (effect : State → State) (ps : List Byte) (s : State) : Answer :=
  if ps.length ≠ 1 then s.refuse .length
  else if field ps 0 1 < 1 ∨ 5 < field ps 0 1 then s.refuse .range
  else ⟨.done, pack8 own, effect s⟩

/-- A Function Clear row; a request that names another target is not its dispatch. -/
def State.clearRow (s : State) (own : Nat) (effect : State → State) (tag : Byte) (ps : List Byte) :
    Host.Outcome State Fault Refusal :=
  if namesOther own ps then .next s else s.immediate 0x74 tag ps (functionClear own effect)

/-- Target PICTURE (R71). -/
def State.clearPicture (s : State) : State := s.setFri (s.fri.mapEyes Eye.clearPicture)

/-- Target AUDIO (R112). -/
def State.clearAudio (s : State) : State := s.setAud s.aud.clearAudio

/-- Target MOTION (R40, R53). -/
def State.clearMotion (s : State) : State :=
  (s.setSmp s.smp.clearMotion).setOri s.ori.clearMotion

/-- Target ACTIONS (R19). -/
def State.clearActions (s : State) : State := s.setTas s.tas.clearActions

/-- Target COUNTERS: the counters of every block (R174). -/
def State.clearCounters (s : State) : State :=
  { s with
    tas := s.tas.clearCounters
    smp := s.smp.clearCounters
    ori := s.ori.clearCounters
    fri := s.fri.mapEyes Eye.clearCounters
    sco := s.sco.clearCounters
    aud := s.aud.clearCounters
    pmg := s.pmg.clearCounters
    lnk := s.lnk.clearCounters
    cfl := s.cfl.clearCounters
    rch := s.rch.clearCounters
    mge := s.mge.clearCounters
    cst := s.cst.clearCounters }

/-- FUNCTION_CLEAR_PICTURE (R174). -/
def execFunctionClearPicture (tag : Byte) (ps : List Byte) (s : State) :
    Host.Outcome State Fault Refusal := s.clearRow 1 State.clearPicture tag ps

/-- FUNCTION_CLEAR_AUDIO (R174). -/
def execFunctionClearAudio (tag : Byte) (ps : List Byte) (s : State) :
    Host.Outcome State Fault Refusal := s.clearRow 2 State.clearAudio tag ps

/-- FUNCTION_CLEAR_MOTION (R174). -/
def execFunctionClearMotion (tag : Byte) (ps : List Byte) (s : State) :
    Host.Outcome State Fault Refusal := s.clearRow 3 State.clearMotion tag ps

/-- FUNCTION_CLEAR_ACTIONS (R174). -/
def execFunctionClearActions (tag : Byte) (ps : List Byte) (s : State) :
    Host.Outcome State Fault Refusal := s.clearRow 4 State.clearActions tag ps

/-- FUNCTION_CLEAR_COUNTERS (R174). -/
def execFunctionClearCounters (tag : Byte) (ps : List Byte) (s : State) :
    Host.Outcome State Fault Refusal := s.clearRow 5 State.clearCounters tag ps

/-! ## Hub Reset (R173) -/

/-- The request is a Hub Reset in progress. -/
def InProgress.resets (e : InProgress) : Bool :=
  match e.resource with
  | .reset _ => true
  | _ => false

/-- Hub Reset: its reply is formed at dispatch and it stays in progress (R173, R167). -/
def hubReset (tag : Byte) (ps : List Byte) (s : State) : LongAnswer :=
  if ps.length ≠ 0 then .answered (s.refuse .length)
  else if s.cst.op ≠ .idle ∨ s.mge.inProgress.any InProgress.resets = true then
    .answered (s.refuse .busy)
  else .started (.reset s.mge.nextSerial) (s.formReply 0x75 tag .done [])

/-- HUB_RESET (R173). -/
def execHubReset (tag : Byte) (ps : List Byte) (s : State) : Host.Outcome State Fault Refusal :=
  s.long 0x75 tag ps (hubReset tag)

/-- Hub Reset at the Message Engine (R173, R176). -/
def Mge.hubReset (m : Mge) : Mge := { Mge.reset with nextSerial := m.nextSerial }

/-- Hub Reset takes effect: every block takes its Hub Reset values and the store load begins (R173). -/
def State.hubResetEffect (s : State) : State :=
  ({ s with
    tas := s.tas.hubReset
    smp := s.smp.hubReset
    ori := s.ori.hubReset
    fri := s.fri.hubReset
    sco := s.sco.hubReset
    aud := s.aud.hubReset
    pmg := s.pmg.hubReset
    lnk := s.lnk.hubReset
    cfl := s.cfl.hubReset
    rch := Rch.reset
    mge := s.mge.hubReset
    cst := s.cst.hubReset s.osc } : State).updateCap

/-! ## Completion of a transmission (R157) -/

/-- Step 1 and the link's own part: the slot empties, the item and the frame are counted (R157, R138). -/
def State.clearSlot (s : State) (i : Fin 4) (item : Item) : State :=
  (s.setRch { s.rch with
    slots := s.rch.slots.set i .empty, sent := s.rch.sent.countOne item.itemClass }).setLnk
    { s.lnk with
      u0 := .idle, counters := { s.lnk.counters with sent := satInc s.lnk.counters.sent } }

/-- The reply that an armed loopback waits for has been sent (R145). -/
def Lnk.startLoopback (l : Lnk) (serial osc : Nat) : Lnk :=
  match l.loopback with
  | .armed seconds n =>
    if n = serial then { l with loopback := .running (osc + ms (seconds * 1000)) } else l
  | _ => l

/-- Step 2: the source is told; a reply transmitted lowers the admitted count and may start the
loopback (R157, R165, R145). -/
def State.told (s : State) : Item → State
  | .reply r =>
    (s.setMge { s.mge with admitted := s.mge.admitted - 1 }).setLnk
      (s.lnk.startLoopback r.serial s.osc)
  | _ => s

/-- The item is the reply of a Hub Reset in progress (R164). -/
def Mge.endsReset (m : Mge) : Item → Bool
  | .reply r => m.inProgress.any (fun e => decide (e.resource = .reset r.serial))
  | _ => false

/-- What U0 does after an upstream frame: in TRAIN the ability word, else what a free lane does (R138,
R157 step 4). -/
def State.afterFrame (s : State) : State :=
  if s.lnk.state = .train then s.sendWord else s.freeLane

/-- The completion of a slot's transmission, steps 1 to 4 (R157). -/
def State.completeSlot (s : State) (i : Fin 4) (item : Item) : State :=
  let t := ((s.clearSlot i item).told item).fill
  if s.mge.endsReset item then t.hubResetEffect.afterFrame else t.afterFrame

/-- TRANSMISSION_COMPLETE: the last CRC byte of a slot's frame has been sent (R138, R157). -/
def execTransmissionComplete (s : State) : Host.Outcome State Fault Refusal :=
  s.live fun s =>
    match s.lnk.u0 with
    | .slot i _ ends =>
      match s.rch.slots[i] with
      | .transmitting item => (s.advanceTo ends).completeSlot i item
      | _ => s
    | _ => s

/-! ## Power (R180, R184) -/

/-- Power-on reset: every block takes its power-on values and the first load begins. The store's
array, the signal on D0, the queue of commands and the turns are not the reset's (R184, log entry 8). -/
def State.powerOn (s : State) : State :=
  { State.reset with
    freeIndex := s.freeIndex
    lnk := { Lnk.reset with d0Signal := s.lnk.d0Signal }
    cst := { Cst.reset with array := s.cst.array }
    pending := s.pending
    turns := s.turns }

/-- POWER_ON_RESET: the tether first supplies power; while it already does, it has gone and come back
(R184, log entry 8). -/
def execPowerOnReset (s : State) : Host.Outcome State Fault Refusal :=
  .next (if s.powered then s.cutOp.powerOn else s.powerOn)

/-- TETHER_POWER_LOSS: the tether stops supplying power and cuts a store operation (R180). -/
def execTetherPowerLoss (s : State) : Host.Outcome State Fault Refusal :=
  s.live fun s => { s.cutOp with powered := false }

end Sys2Proof.Machine
end

