-- ==== Sys2Proof/Machine/Reception.lean ====
section
/-! DEFINITION. Reception of downstream frames (R137): the link's judgement, routing, hand-over. -/

namespace Sys2Proof.Machine

/-- A received frame as the link judges it (R137). -/
inductive Received where
  | malformed
  | crcFailure
  | good (channel : BitVec 12) (payload frame : List Byte)
  deriving DecidableEq, Repr

/-- The link's judgement of the bytes received between a frame start sequence and the end of its
reception (R137, 12.2). -/
def judgeFrame (bytes : List Byte) : Received :=
  let len := field bytes 0 4 / 4096
  if bytes.length < 4 ∨ len = 0 ∨ maxPayload < len ∨ bytes.length < len + 8 then .malformed
  else if (crc32 (bytes.take (len + 4))).toNat ≠ field bytes (len + 4) 4 then .crcFailure
  else
    .good (BitVec.ofNat 12 (field bytes 0 4)) ((bytes.drop 4).take len) (bytes.take (len + 8))

/-- A malformed frame is counted (R137). -/
def Lnk.countMalformed (l : Lnk) : Lnk :=
  { l with counters := { l.counters with malformed := satInc l.counters.malformed } }

/-- A CRC failure is counted, also in the window's tally (R137, R140). -/
def Lnk.countCrc (l : Lnk) : Lnk :=
  { l with
    crcTally := l.crcTally + 1
    counters := { l.counters with crcFailures := satInc l.counters.crcFailures } }

/-- A routed frame at its destination (R150); CONTROL goes to the echo path while a loopback runs
(R146). -/
def State.handOver (s : State) (payload frame : List Byte) : Destination → State
  | .control => if s.lnk.suspended then s.echo frame else s.controlMessage payload
  | .time => s.timeMark payload
  | .pictureL => s.pictureMessage .left payload
  | .pictureR => s.pictureMessage .right payload
  | .audio => s.audioBlock payload
  | .discard => s

/-- A good frame is counted, routed and handed over (R137, R150). -/
def State.goodFrame (s : State) (channel : BitVec 12) (payload frame : List Byte) : State :=
  (s.routed channel).handOver payload frame (s.cfl.take channel).2

/-- A frame's reception ends (R137). -/
def State.receive (s : State) (bytes : List Byte) : State :=
  match judgeFrame bytes with
  | .malformed => s.setLnk s.lnk.countMalformed
  | .crcFailure => s.setLnk s.lnk.countCrc
  | .good channel payload frame => s.goodFrame channel payload frame

/-- DOWNSTREAM_FRAME_RECEPTION: frames are received in UP alone (R137). -/
def execDownstreamFrameReception (bytes : List Byte) (s : State) :
    Host.Outcome State Fault Refusal :=
  s.live fun s => if s.lnk.state = .up then s.receive bytes else s

end Sys2Proof.Machine
end

