-- ==== Sys2Proof/Machine/Dispatch.lean ====
section
/-! DEFINITION. One arm per command: each calls its meaning. -/

namespace Sys2Proof.Machine

def exec (i : Instr) (s : State) : Host.Outcome State Fault Refusal :=
  match i with
  | .powerOnReset => Sys2Proof.Machine.execPowerOnReset s
  | .storeLoadEnd => Sys2Proof.Machine.execStoreLoadEnd s
  | .readTime tag ps => Sys2Proof.Machine.execReadTime tag ps s
  | .addAction tag ps => Sys2Proof.Machine.execAddAction tag ps s
  | .cancelAction tag ps => Sys2Proof.Machine.execCancelAction tag ps s
  | .listActions tag ps => Sys2Proof.Machine.execListActions tag ps s
  | .groupTrigger tag ps => Sys2Proof.Machine.execGroupTrigger tag ps s
  | .actionExpiry => Sys2Proof.Machine.execActionExpiry s
  | .downstreamFrameReception bytes => Sys2Proof.Machine.execDownstreamFrameReception bytes s
  | .requestUnknownKind kind tag ps => Sys2Proof.Machine.execRequestUnknownKind kind tag ps s
  | .setSchedule tag ps => Sys2Proof.Machine.execSetSchedule tag ps s
  | .setSamplingRate tag ps => Sys2Proof.Machine.execSetSamplingRate tag ps s
  | .setCalibration tag ps => Sys2Proof.Machine.execSetCalibration tag ps s
  | .setStillness tag ps => Sys2Proof.Machine.execSetStillness tag ps s
  | .setWear tag ps => Sys2Proof.Machine.execSetWear tag ps s
  | .setMotionReporting tag ps => Sys2Proof.Machine.execSetMotionReporting tag ps s
  | .readSamples tag ps => Sys2Proof.Machine.execReadSamples tag ps s
  | .readMotionStatus tag ps => Sys2Proof.Machine.execReadMotionStatus tag ps s
  | .samplingTick => Sys2Proof.Machine.execSamplingTick s
  | .sensorReadEnd word => Sys2Proof.Machine.execSensorReadEnd word s
  | .sensorReadTimeout => Sys2Proof.Machine.execSensorReadTimeout s
  | .readOrientation tag ps => Sys2Proof.Machine.execReadOrientation tag ps s
  | .setDisplayMode tag ps => Sys2Proof.Machine.execSetDisplayMode tag ps s
  | .readPictureStatus tag ps => Sys2Proof.Machine.execReadPictureStatus tag ps s
  | .panelsOn tag ps => Sys2Proof.Machine.execPanelsOn tag ps s
  | .panelsOff tag ps => Sys2Proof.Machine.execPanelsOff tag ps s
  | .panelsShow tag ps => Sys2Proof.Machine.execPanelsShow tag ps s
  | .panelsStandby tag ps => Sys2Proof.Machine.execPanelsStandby tag ps s
  | .setEmission tag ps => Sys2Proof.Machine.execSetEmission tag ps s
  | .setPanelGeometry tag ps => Sys2Proof.Machine.execSetPanelGeometry tag ps s
  | .readScanStatus tag ps => Sys2Proof.Machine.execReadScanStatus tag ps s
  | .rampUpEnd panel => Sys2Proof.Machine.execRampUpEnd panel s
  | .rampDownEnd panel => Sys2Proof.Machine.execRampDownEnd panel s
  | .refreshStart => Sys2Proof.Machine.execRefreshStart s
  | .setAttenuation tag ps => Sys2Proof.Machine.execSetAttenuation tag ps s
  | .startCapture tag ps => Sys2Proof.Machine.execStartCapture tag ps s
  | .stopCapture tag ps => Sys2Proof.Machine.execStopCapture tag ps s
  | .readAudioStatus tag ps => Sys2Proof.Machine.execReadAudioStatus tag ps s
  | .playoutHeadDue => Sys2Proof.Machine.execPlayoutHeadDue s
  | .currentBlockEnd => Sys2Proof.Machine.execCurrentBlockEnd s
  | .captureInputFrame first second => Sys2Proof.Machine.execCaptureInputFrame first second s
  | .powerGrant tag ps => Sys2Proof.Machine.execPowerGrant tag ps s
  | .setThrottleRow tag ps => Sys2Proof.Machine.execSetThrottleRow tag ps s
  | .setPowerPolicy tag ps => Sys2Proof.Machine.execSetPowerPolicy tag ps s
  | .readPowerStatus tag ps => Sys2Proof.Machine.execReadPowerStatus tag ps s
  | .railScanEnd codes => Sys2Proof.Machine.execRailScanEnd codes s
  | .readLinkStatus tag ps => Sys2Proof.Machine.execReadLinkStatus tag ps s
  | .readLinkCounters tag ps => Sys2Proof.Machine.execReadLinkCounters tag ps s
  | .setLinkQuality tag ps => Sys2Proof.Machine.execSetLinkQuality tag ps s
  | .linkRetrain tag ps cut => Sys2Proof.Machine.execLinkRetrain tag ps cut s
  | .linkLoopback tag ps => Sys2Proof.Machine.execLinkLoopback tag ps s
  | .d0SignalDetect => Sys2Proof.Machine.execD0SignalDetect s
  | .backoffEnd => Sys2Proof.Machine.execBackoffEnd s
  | .laneWordLock lane => Sys2Proof.Machine.execLaneWordLock lane s
  | .laneLockLoss lane cut => Sys2Proof.Machine.execLaneLockLoss lane cut s
  | .hostAbilityWord word => Sys2Proof.Machine.execHostAbilityWord word s
  | .trainingLimitExpiry => Sys2Proof.Machine.execTrainingLimitExpiry s
  | .recoveryLimitExpiry => Sys2Proof.Machine.execRecoveryLimitExpiry s
  | .qualityWindowEnd energies cut => Sys2Proof.Machine.execQualityWindowEnd energies cut s
  | .quietMarker cut => Sys2Proof.Machine.execQuietMarker cut s
  | .wakeMarker => Sys2Proof.Machine.execWakeMarker s
  | .loopbackTimerExpiry => Sys2Proof.Machine.execLoopbackTimerExpiry s
  | .echoTransmissionComplete => Sys2Proof.Machine.execEchoTransmissionComplete s
  | .abilityWordEnd => Sys2Proof.Machine.execAbilityWordEnd s
  | .transmissionComplete => Sys2Proof.Machine.execTransmissionComplete s
  | .setChannelFilter tag ps => Sys2Proof.Machine.execSetChannelFilter tag ps s
  | .readChannelFilter tag ps => Sys2Proof.Machine.execReadChannelFilter tag ps s
  | .setReturnPriority tag ps => Sys2Proof.Machine.execSetReturnPriority tag ps s
  | .readReturnStatus tag ps => Sys2Proof.Machine.execReadReturnStatus tag ps s
  | .identify tag ps => Sys2Proof.Machine.execIdentify tag ps s
  | .readSummary tag ps => Sys2Proof.Machine.execReadSummary tag ps s
  | .setAttentionEnable tag ps => Sys2Proof.Machine.execSetAttentionEnable tag ps s
  | .setReportEnable tag ps => Sys2Proof.Machine.execSetReportEnable tag ps s
  | .functionClearPicture tag ps => Sys2Proof.Machine.execFunctionClearPicture tag ps s
  | .functionClearAudio tag ps => Sys2Proof.Machine.execFunctionClearAudio tag ps s
  | .functionClearMotion tag ps => Sys2Proof.Machine.execFunctionClearMotion tag ps s
  | .functionClearActions tag ps => Sys2Proof.Machine.execFunctionClearActions tag ps s
  | .functionClearCounters tag ps => Sys2Proof.Machine.execFunctionClearCounters tag ps s
  | .hubReset tag ps => Sys2Proof.Machine.execHubReset tag ps s
  | .erasePage tag ps => Sys2Proof.Machine.execErasePage tag ps s
  | .programStore tag ps => Sys2Proof.Machine.execProgramStore tag ps s
  | .eraseEnd => Sys2Proof.Machine.execEraseEnd s
  | .programEnd => Sys2Proof.Machine.execProgramEnd s
  | .readStore tag ps => Sys2Proof.Machine.execReadStore tag ps s
  | .blankCheck tag ps => Sys2Proof.Machine.execBlankCheck tag ps s
  | .setProtectBoundary tag ps => Sys2Proof.Machine.execSetProtectBoundary tag ps s
  | .readStoreMap tag ps => Sys2Proof.Machine.execReadStoreMap tag ps s
  | .tetherPowerLoss => Sys2Proof.Machine.execTetherPowerLoss s
  | .sensorReadyLineRaised device => Sys2Proof.Machine.execSensorReadyLineRaised device s
  | .d0SignalLoss => Sys2Proof.Machine.execD0SignalLoss s

end Sys2Proof.Machine
end

