-- ==== Sys2Proof/Machine/Step.lean ====
section
/-! DEFINITION. One step: the command at the front of the queue, or one microsecond that passes. -/

namespace Sys2Proof.Machine

/-- A step with no command waiting: while the part is powered one microsecond passes (R1, log entry 1). -/
def State.idle (s : State) : State := if s.powered then s.advanceTo (s.osc + us 1) else s

/-- Take the command at the front of the queue and run it on the queue's rest. -/
def step (s : State) : Host.Outcome State Fault Refusal :=
  match s.pending with
  | [] => .next s.idle
  | c :: rest => exec c (s.setPending rest)

/-- The state with the command that a word of the table spells put at the front of its queue; unchanged
where the word spells none, which is every word (log entry 28). -/
def State.withFetchWord (s : State) (nbits w : Nat) : State :=
  match decodeTableWord nbits w with
  | some c => s.setPending (c :: s.pending)
  | none => s

end Sys2Proof.Machine
end

