-- ==== Sys2Proof/Safety.lean ====
section
/-! DEFINITION. The terms in which claims are made: what a command may leave changed beside its own
effect, what counts as answered and reported, and the bounds that the manual states of every state. -/

namespace Sys2Proof.Machine

/-! ## Answers and reports on their way out -/

/-- The reply a transmit slot holds. -/
def TxSlot.reply? : TxSlot → Option Reply
  | .occupied (.reply r) => some r
  | .transmitting (.reply r) => some r
  | _ => none

/-- The report a transmit slot holds. -/
def TxSlot.report? : TxSlot → Option Report
  | .occupied (.report r) => some r
  | .transmitting (.report r) => some r
  | _ => none

/-- Replies formed and not yet transmitted: in the slots, then in the Reply Queue (R165). -/
def State.outgoing (s : State) : List Reply :=
  s.rch.slots.toList.filterMap TxSlot.reply? ++ s.mge.replies

/-- Reports formed and not yet transmitted: in the slots, then in the Report Queue. -/
def State.outgoingReports (s : State) : List Report :=
  s.rch.slots.toList.filterMap TxSlot.report? ++ s.mge.reports

/-- In `t`, the reply that was the next to be formed in `s` is on its way, with this status and these
result fields. -/
def Answered (s t : State) (kind tag : Byte) (status : Status) (fields : List Byte) : Prop :=
  (⟨s.mge.nextSerial, kind, tag, status, fields⟩ : Reply) ∈ t.outgoing

/-- In `t`, a report of this kind with these fields is on its way. -/
def Reported (t : State) (kind : ReportKind) (fields : List Byte) : Prop :=
  (⟨kind, fields⟩ : Report) ∈ t.outgoingReports

/-- The part is powered and the request stands at the head of the Request Queue. -/
abbrev Stands (s : State) (kind tag : Byte) (ps : List Byte) : Prop :=
  s.powered = true ∧ s.mge.requests.head? = some ⟨kind, tag, ps⟩

/-! ## Frames -/

/-- The items at a class's waiting place, the next to be placed first (R154). -/
def State.queued (s : State) : ItemClass → List Item
  | .reply => s.mge.replies.map .reply
  | .report => s.mge.reports.map .report
  | .motion => s.rch.pendingMotion.toList.map .motion
  | .capture => s.aud.captureQueue.map .capture

/-- Every item on its way out: in the transmit slots, then at the waiting places. -/
def State.items (s : State) : List Item :=
  s.rch.slots.toList.filterMap TxSlot.item ++ s.queued .reply ++ s.queued .report ++ s.queued .motion ++
    s.queued .capture

/-- Nothing but messages has moved: replies and reports formed, placed in slots, granted U0; a full Report
Queue's oldest dropped. Every other piece of state is as in `s`, and nothing that was on its way in `s` is
lost but a report so dropped and counted: a slot keeps its item, an item granted U0 stays with it, and what
waited is still waiting or is in a slot. What is new is replies formed, with their serials, and reports. -/
structure OnlyMessages (s t : State) : Prop where
  osc : t.osc = s.osc
  powered : t.powered = s.powered
  freeIndex : t.freeIndex = s.freeIndex
  tas : t.tas = s.tas
  smp : t.smp = s.smp
  ori : t.ori = s.ori
  fri : t.fri = s.fri
  sco : t.sco = s.sco
  pmg : t.pmg = s.pmg
  cfl : t.cfl = s.cfl
  cst : t.cst = s.cst
  pending : t.pending = s.pending
  aud : t.aud = { s.aud with captureQueue := t.aud.captureQueue }
  captured : t.aud.captureQueue <:+ s.aud.captureQueue
  lnk : t.lnk = { s.lnk with u0 := t.lnk.u0 }
  rch : t.rch = { s.rch with slots := t.rch.slots, pendingMotion := t.rch.pendingMotion }
  mge : t.mge = { s.mge with
    replies := t.mge.replies
    reports := t.mge.reports
    nextSerial := t.mge.nextSerial
    outstanding := t.mge.outstanding
    reportDrops := t.mge.reportDrops }
  turns : t.turns = s.turns
  slots : ∀ (i : Fin 4) (x : Item), (s.rch.slots[i].item = some x → t.rch.slots[i].item = some x) ∧
    (s.rch.slots[i] = .transmitting x → t.rch.slots[i] = .transmitting x)
  sending : s.lnk.u0 ≠ .idle → t.lnk.u0 = s.lnk.u0
  granted : s.lnk.u0 = .idle → t.lnk.u0 = .idle ∨
    ∃ i x e, t.lnk.u0 = .slot i x.frame e ∧ t.rch.slots[i] = .transmitting x
  motion : t.rch.pendingMotion = s.rch.pendingMotion ∨ t.rch.pendingMotion = none
  kept : ∀ x ∈ s.items, x.itemClass ≠ .report → x ∈ t.items
  reportsKept : ∀ x ∈ s.items, x ∈ t.items ∨ s.mge.reportDrops.toNat < t.mge.reportDrops.toNat ∨
    s.mge.reportDrops = BitVec.allOnes 16
  drops : s.mge.reportDrops.toNat ≤ t.mge.reportDrops.toNat
  serials : s.mge.nextSerial ≤ t.mge.nextSerial
  news : ∀ x ∈ t.items, x ∈ s.items ∨ x.itemClass = .report ∨
    ∃ r, x = .reply r ∧ s.mge.nextSerial ≤ r.serial ∧ r.serial < t.mge.nextSerial

/-- The state with summary bits set and nothing else. -/
def State.withBits (s : State) (bits : BitVec 8) : State :=
  s.setMge { s.mge with summary := s.mge.summary ||| bits }

/-! ## Bounds -/

/-- At most the limit of each class is in the transmit slots (R155). -/
def Rch.limitsHold (r : Rch) : Prop := ∀ c : ItemClass, r.holding c ≤ c.limit

/-- The slot whose item U0 is sending is the one slot that is TRANSMITTING, and the classes are within their
limits. In DOWN U0 is off and every slot is empty. Outside it a class that waits below its limit finds no slot
EMPTY, and a U0 that is free, with no loopback running, finds no slot OCCUPIED (R155 to R157, R161, R162). -/
def State.slotsHeld (s : State) : Prop :=
  s.rch.limitsHold ∧
    (∀ i : Fin 4, (∃ item, s.rch.slots[i] = .transmitting item) ↔ ∃ f e, s.lnk.u0 = .slot i f e) ∧
    (s.lnk.state = .down → s.lnk.u0 = .idle ∧ ∀ i : Fin 4, s.rch.slots[i] = .empty) ∧
    (s.lnk.state ≠ .down →
      (∀ c, s.waiting c ≠ none → s.rch.holding c < c.limit → ∀ i : Fin 4, s.rch.slots[i] ≠ .empty) ∧
      (s.lnk.u0 = .idle → s.lnk.suspended = false → ∀ (i : Fin 4) (item : Item),
        s.rch.slots[i] ≠ .occupied item))

/-- The admitted count is the number of requests that wait or are in progress and of replies not yet
transmitted (the request of a Hub Reset counts by its reply), and it is within the admission bound
(R165, R168). -/
def State.admissionHeld (s : State) : Prop :=
  s.mge.admitted = s.mge.requests.length +
      (s.mge.inProgress.filter fun e => !e.resets).length + s.outgoing.length ∧
    s.mge.admitted ≤ 8

/-- The report, capture and playout queues are within their capacities, and the presentation times in
the Playout Queue strictly increase (R98, R109, R168). -/
def State.queuesBounded (s : State) : Prop :=
  s.mge.reports.length ≤ 8 ∧ s.aud.captureQueue.length ≤ 8 ∧ s.aud.queue.length ≤ 16 ∧
    s.aud.queue.Pairwise fun a b => a.time.toNat < b.time.toNat

/-- The Action Table is within its capacity and its ids differ (R8). -/
def Tas.tableOk (t : Tas) : Prop :=
  t.table.length ≤ 16 ∧ (t.table.map Action.id).Nodup

/-- The Action Table stands in table order: due times do not fall, and the GROUPED entries come last (R8). -/
def Tas.tableOrdered (t : Tas) : Prop :=
  t.table.Pairwise fun a b =>
    match a.trigger.due, b.trigger.due with
    | some x, some y => x.toNat ≤ y.toNat
    | none, some _ => False
    | _, none => True

/-- The rings hold at most 64 records, and the same sequence numbers (R31, R46, R47). -/
def State.ringsBounded (s : State) : Prop :=
  s.smp.ring.length ≤ 64 ∧ s.ori.history.length ≤ 64 ∧
    s.smp.ring.map SampleRecord.seq = s.ori.history.map PoseEntry.seq

/-- An eye has at most one FILLING slot and at most one SCANNING slot (R57). -/
def Eye.slotsOk (e : Eye) : Prop :=
  ∀ i j : Fin 3, e.slots[i].state = e.slots[j].state →
    e.slots[i].state = .filling ∨ e.slots[i].state = .scanning → i = j

/-- Neither panel's applied emission lies above the emission cap in force (R93, R126). -/
def State.capHeld (s : State) : Prop :=
  s.sco.panels.left.applied ≤ s.emissionCap ∧ s.sco.panels.right.applied ≤ s.emissionCap

/-- The stage in force is the greatest of the three stages, and the contract is one that a grant can give
(R115, R123). -/
def Pmg.held (p : Pmg) : Prop :=
  p.stage = max (max p.ps p.ts) p.bs ∧ 2000 ≤ p.contract ∧ p.contract ≤ 20000

/-- Every row of the Throttle Table is within its fields' ranges, and the rows obey the three order conditions
(R124). -/
def Pmg.rowsHeld (p : Pmg) : Prop :=
  (∀ i : Fin 4, p.rows[i].emissionCap ≤ 1023 ∧ p.rows[i].minAttenuation ≤ 255) ∧
    ∀ j k : Fin 4, j < k → p.rows[k].emissionCap ≤ p.rows[j].emissionCap ∧
      p.rows[j].minAttenuation ≤ p.rows[k].minAttenuation ∧ p.rows[k].maxRate.hz ≤ p.rows[j].maxRate.hz

/-- An erase or program in progress lies on a page at or above the protect boundary, and a program writes 1 to
64 bytes inside that page (R181). -/
def Cst.opHeld (c : Cst) : Prop :=
  match c.op with
  | .erasing page _ => c.boundary ≤ page ∧ page < 8
  | .programming page offset data _ =>
    c.boundary ≤ page ∧ page < 8 ∧ 1 ≤ data.length ∧ data.length ≤ 64 ∧ offset + data.length ≤ 1024
  | _ => True

/-- The bounds that the manual gives for every state, together. -/
structure State.Bounded (s : State) : Prop where
  queues : s.queuesBounded
  table : s.tas.tableOk
  order : s.tas.tableOrdered
  rings : s.ringsBounded
  eyes : ∀ p, (s.fri.eyes.get p).slotsOk
  cap : s.capHeld
  power : s.pmg.held
  rows : s.pmg.rowsHeld
  level : s.aud.requestedAtt ≤ 255
  store : storeWf s.cst.array = true
  op : s.cst.opHeld

end Sys2Proof.Machine
end

