-- ==== Sys2Proof/WellFormed.lean ====
section
/-! DEFINITION. What a command must meet to be one the part can be given. -/

namespace Sys2Proof

open Sys2Proof.Machine

/-- A request's parameters fit a control frame: a 6-byte header and a payload of at most 24 576 bytes
(R165, 12.2). -/
def WellFormed.params (ps : List Byte) : Bool := decide (ps.length + 6 ≤ maxPayload)

/-- A Function Clear row is given no request that names another target (R174). -/
def WellFormed.target (own : Nat) (ps : List Byte) : Bool :=
  WellFormed.params ps &&
    (decide (ps.length ≠ 1) || decide (field ps 0 1 = own) || decide (field ps 0 1 = 0) ||
      decide (5 < field ps 0 1))

/-- The bytes of one reception: no more than the length field allows for, and no more than a header
where the length field is bad (R137). -/
def WellFormed.reception (bytes : List Byte) : Bool :=
  let len := field bytes 0 4 / 4096
  if bytes.length < 4 then true
  else if len = 0 ∨ maxPayload < len then decide (bytes.length = 4)
  else decide (bytes.length ≤ len + 8)

/-- The command is one the part can be given. -/
def WellFormed : Instr → Bool
  | .powerOnReset => true
  | .storeLoadEnd => true
  | .readTime _ ps => WellFormed.params ps
  | .addAction _ ps => WellFormed.params ps
  | .cancelAction _ ps => WellFormed.params ps
  | .listActions _ ps => WellFormed.params ps
  | .groupTrigger _ ps => WellFormed.params ps
  | .actionExpiry => true
  | .downstreamFrameReception bytes => WellFormed.reception bytes
  | .requestUnknownKind kind _ ps => !isRequestKind kind && WellFormed.params ps
  | .setSchedule _ ps => WellFormed.params ps
  | .setSamplingRate _ ps => WellFormed.params ps
  | .setCalibration _ ps => WellFormed.params ps
  | .setStillness _ ps => WellFormed.params ps
  | .setWear _ ps => WellFormed.params ps
  | .setMotionReporting _ ps => WellFormed.params ps
  | .readSamples _ ps => WellFormed.params ps
  | .readMotionStatus _ ps => WellFormed.params ps
  | .samplingTick => true
  | .sensorReadEnd _ => true
  | .sensorReadTimeout => true
  | .readOrientation _ ps => WellFormed.params ps
  | .setDisplayMode _ ps => WellFormed.params ps
  | .readPictureStatus _ ps => WellFormed.params ps
  | .panelsOn _ ps => WellFormed.params ps
  | .panelsOff _ ps => WellFormed.params ps
  | .panelsShow _ ps => WellFormed.params ps
  | .panelsStandby _ ps => WellFormed.params ps
  | .setEmission _ ps => WellFormed.params ps
  | .setPanelGeometry _ ps => WellFormed.params ps
  | .readScanStatus _ ps => WellFormed.params ps
  | .rampUpEnd _ => true
  | .rampDownEnd _ => true
  | .refreshStart => true
  | .setAttenuation _ ps => WellFormed.params ps
  | .startCapture _ ps => WellFormed.params ps
  | .stopCapture _ ps => WellFormed.params ps
  | .readAudioStatus _ ps => WellFormed.params ps
  | .playoutHeadDue => true
  | .currentBlockEnd => true
  | .captureInputFrame _ _ => true
  | .powerGrant _ ps => WellFormed.params ps
  | .setThrottleRow _ ps => WellFormed.params ps
  | .setPowerPolicy _ ps => WellFormed.params ps
  | .readPowerStatus _ ps => WellFormed.params ps
  | .railScanEnd _ => true
  | .readLinkStatus _ ps => WellFormed.params ps
  | .readLinkCounters _ ps => WellFormed.params ps
  | .setLinkQuality _ ps => WellFormed.params ps
  | .linkRetrain _ ps _ => WellFormed.params ps
  | .linkLoopback _ ps => WellFormed.params ps
  | .d0SignalDetect => true
  | .backoffEnd => true
  | .laneWordLock _ => true
  | .laneLockLoss _ _ => true
  | .hostAbilityWord _ => true
  | .trainingLimitExpiry => true
  | .recoveryLimitExpiry => true
  | .qualityWindowEnd _ _ => true
  | .quietMarker _ => true
  | .wakeMarker => true
  | .loopbackTimerExpiry => true
  | .echoTransmissionComplete => true
  | .abilityWordEnd => true
  | .transmissionComplete => true
  | .setChannelFilter _ ps => WellFormed.params ps
  | .readChannelFilter _ ps => WellFormed.params ps
  | .setReturnPriority _ ps => WellFormed.params ps
  | .readReturnStatus _ ps => WellFormed.params ps
  | .identify _ ps => WellFormed.params ps
  | .readSummary _ ps => WellFormed.params ps
  | .setAttentionEnable _ ps => WellFormed.params ps
  | .setReportEnable _ ps => WellFormed.params ps
  | .functionClearPicture _ ps => WellFormed.target 1 ps
  | .functionClearAudio _ ps => WellFormed.target 2 ps
  | .functionClearMotion _ ps => WellFormed.target 3 ps
  | .functionClearActions _ ps => WellFormed.target 4 ps
  | .functionClearCounters _ ps => WellFormed.target 5 ps
  | .hubReset _ ps => WellFormed.params ps
  | .erasePage _ ps => WellFormed.params ps
  | .programStore _ ps => WellFormed.params ps
  | .eraseEnd => true
  | .programEnd => true
  | .readStore _ ps => WellFormed.params ps
  | .blankCheck _ ps => WellFormed.params ps
  | .setProtectBoundary _ ps => WellFormed.params ps
  | .readStoreMap _ ps => WellFormed.params ps
  | .tetherPowerLoss => true
  | .sensorReadyLineRaised _ => true
  | .d0SignalLoss => true

end Sys2Proof
end

