-- ==== Sys2Proof/Certificates/Slice0/Obligations.lean ====
section
/-! DEFINITION. The statements for the provers, each with the rule or the choice of the model it states.

Shapes used throughout: `Stands s k tag ps` says that the part is powered and the request stands at the
head of the Request Queue; `OnlyMessages x t` says that `t` is `x` but for messages that moved;
`Answered s t k tag st fs` says that the reply is on its way in `t`.

Time: the commands of a timer or of an end of something (ACTION_EXPIRY, STORE_LOAD_END, SAMPLING_TICK and the like)
first let time pass until their moment, by `State.advanceTo` or `State.awaitTime`; one whose moment lies behind
is taken late, at the time that is. That is the model's choice, log entries 2 and 4, and every statement
about such a command is made on it: O9, O17, O21 to O23, O30, O33, O36, O37, O39, O41, O43, O45, O47, O51 to O53
and O55. -/

open Sys2Proof Sys2Proof.Machine

/-! ## Every command -/

/-- A step with a command at the front of the queue runs exactly that command on the queue's rest. -/
def Obligations.StepRunsFrontCommand : Prop :=
  ∀ (c : Instr) (rest : List Instr) (s : State),
    step (s.setPending (c :: rest)) = exec c (s.setPending rest)

/-- The model's choices (log entries 1 and 8): with no command waiting one microsecond passes on a powered
part, in which Tether Time increases by one; without power no command changes anything, but that power
comes on and that signal appears on D0 or leaves it. -/
def Obligations.IdleAndUnpoweredSteps : Prop :=
  (∀ s : State, s.pending = [] →
     (s.powered = true →
       step s = .next { s with osc := s.osc + 750, tas := { s.tas with now := s.tas.now + 1 } }) ∧
     (s.powered = false → step s = .next s)) ∧
  ((∀ (c : Instr) (s : State), s.powered = false → c ≠ .powerOnReset → c ≠ .d0SignalDetect →
       c ≠ .d0SignalLoss → exec c s = .next s) ∧
     ∀ s : State, s.powered = false →
       exec .d0SignalDetect s = .next (s.setLnk { s.lnk with d0Signal := true }) ∧
       exec .d0SignalLoss s = .next (s.setLnk { s.lnk with d0Signal := false }))

/-- No command of the table ends in a fault or a refusal, in any state, and none touches the queue of commands
that wait behind it. -/
def Obligations.EveryCommandCompletes : Prop :=
  ∀ (c : Instr) (s : State), ∃ t, exec c s = .next t ∧ t.pending = s.pending

/-- The model's choice (log entry 5): a request given with its row that does not yet stand at the head of the
Request Queue first arrives, as a good frame on the lowest channel that the Channel Filter routes to CONTROL, in
UP with no loopback running; that frame and its hit are counted. In an empty queue the row then does what
it does for a request that stands there, behind another request it waits, and past the admission bound it is an
overrun. Where no channel leads to CONTROL, or the message fits no frame, or the link does not receive it, the row
does nothing. -/
def Obligations.RequestArrivesWithItsRow : Prop :=
  ∀ (k tag : Byte) (ps : List Byte) (s : State), s.powered = true →
    s.mge.requests.head? ≠ some ⟨k, tag, ps⟩ →
    let hits := fun (c : BitVec 12) (e : FilterEntry) => e.enabled = true ∧ c &&& e.mask = e.value &&& e.mask
    let leads := fun (c : BitVec 12) (i : Fin 8) => hits c s.cfl.entries[i] ∧
      s.cfl.entries[i].dest = .control ∧ ∀ j : Fin 8, j < i → ¬ hits c s.cfl.entries[j]
    let open' := s.lnk.state = .up ∧ s.lnk.suspended = false ∧ ps.length + 6 ≤ 24576
    (∀ (c : BitVec 12) (i : Fin 8), open' → leads c i → (∀ d, d < c → ∀ j, ¬ leads d j) →
      let e := s.cfl.entries[i]
      let g := (s.setLnk { s.lnk with counters := { s.lnk.counters with
        good := satInc s.lnk.counters.good } }).setCfl { s.cfl with
          entries := s.cfl.entries.set i { e with hits := satInc e.hits } }
      let a := g.setMge { s.mge with
        requests := s.mge.requests ++ [⟨k, tag, ps⟩], admitted := s.mge.admitted + 1 }
      (s.mge.admitted < 8 → s.mge.requests = [] → Stands a k tag ps ∧
        (∀ owner, s.immediate k tag ps owner = a.immediate k tag ps owner) ∧
        ∀ owner, s.long k tag ps owner = a.long k tag ps owner) ∧
      (s.mge.admitted < 8 → s.mge.requests ≠ [] →
        (∀ owner, s.immediate k tag ps owner = .next a) ∧ ∀ owner, s.long k tag ps owner = .next a) ∧
      (8 ≤ s.mge.admitted → ∃ t,
        OnlyMessages ((g.setMge { s.mge with overruns := satInc s.mge.overruns }).withBits bitMsg) t ∧
        (∀ owner, s.immediate k tag ps owner = .next t) ∧ ∀ owner, s.long k tag ps owner = .next t)) ∧
    (¬ open' ∨ (∀ c i, ¬ leads c i) →
      (∀ owner, s.immediate k tag ps owner = .next s) ∧ ∀ owner, s.long k tag ps owner = .next s)

/-- A request of one of the kinds listed whose parameter length does not fit its kind is answered LENGTH, and one
whose kind code names no kind UNKNOWN, with no result fields; nothing else changes. The four panel requests of
5.1.2 are answered LENGTH, or RANGE for an unknown panel set, with the panel set and both panel states; the
panel set of a request that carries none is a free value (log entry 11). Add Action's wrong lengths are in
AddActionRefusals, Set Schedule's in SetScheduleReplacesList, the store's in StoreRequestsChecked. -/
def Obligations.BadRequestsAnswered : Prop :=
  (∀ p ∈ ([(0x10, 1, Instr.readTime), (0x12, 1, .cancelAction), (0x13, 0, .listActions),
       (0x14, 1, .groupTrigger), (0x21, 2, .setSamplingRate), (0x22, 5, .setCalibration),
       (0x23, 6, .setStillness), (0x24, 4, .setWear), (0x25, 2, .setMotionReporting),
       (0x26, 5, .readSamples), (0x27, 1, .readMotionStatus), (0x30, 1, .readOrientation),
       (0x38, 4, .setDisplayMode), (0x39, 1, .readPictureStatus), (0x44, 3, .setEmission),
       (0x45, 6, .setPanelGeometry), (0x46, 1, .readScanStatus), (0x50, 2, .setAttenuation),
       (0x51, 3, .startCapture), (0x52, 0, .stopCapture), (0x53, 1, .readAudioStatus),
       (0x58, 1, .powerGrant), (0x59, 7, .setThrottleRow), (0x5A, 5, .setPowerPolicy),
       (0x5B, 1, .readPowerStatus), (0x60, 0, .readLinkStatus), (0x61, 1, .readLinkCounters),
       (0x62, 18, .setLinkQuality), (0x63, 1, fun tag ps => .linkRetrain tag ps false),
       (0x63, 1, fun tag ps => .linkRetrain tag ps true), (0x64, 1, .linkLoopback),
       (0x68, 7, .setChannelFilter),
       (0x69, 1, .readChannelFilter), (0x6A, 4, .setReturnPriority), (0x6B, 1, .readReturnStatus),
       (0x70, 0, .identify), (0x71, 1, .readSummary), (0x72, 1, .setAttentionEnable),
       (0x73, 6, .setReportEnable), (0x74, 1, .functionClearPicture), (0x74, 1, .functionClearAudio),
       (0x74, 1, .functionClearMotion), (0x74, 1, .functionClearActions),
       (0x74, 1, .functionClearCounters), (0x75, 0, .hubReset)] : List (Byte × Nat × (Byte → List Byte → Instr))),
     ∀ (tag : Byte) (ps : List Byte) (s : State), Stands s p.1 tag ps → ps.length ≠ p.2.1 →
       ∃ t, exec (p.2.2 tag ps) s = .next t ∧ OnlyMessages s.popRequest t ∧
         Answered s t p.1 tag .length []) ∧
  (∀ p ∈ ([(0x40, Instr.panelsOn), (0x41, .panelsOff), (0x42, .panelsShow), (0x43, .panelsStandby)] :
       List (Byte × (Byte → List Byte → Instr))), ∀ (tag : Byte) (s : State),
     let states := pack8 (s.panel .left).state.code ++ pack8 (s.panel .right).state.code
     (Stands s p.1 tag [] → ∃ t b, exec (p.2 tag []) s = .next t ∧
       OnlyMessages (s.popRequest.setFree (s.freeIndex + 1)) t ∧
       Answered s t p.1 tag .length ([b] ++ states)) ∧
     (∀ (b c : Byte) (ps : List Byte), Stands s p.1 tag (b :: c :: ps) →
       ∃ t, exec (p.2 tag (b :: c :: ps)) s = .next t ∧ OnlyMessages s.popRequest t ∧
         Answered s t p.1 tag .length ([b] ++ states)) ∧
     ∀ b : Byte, b = 0 ∨ 3 < b.toNat → Stands s p.1 tag [b] →
       ∃ t, exec (p.2 tag [b]) s = .next t ∧ OnlyMessages s.popRequest t ∧
         Answered s t p.1 tag .range ([b] ++ states)) ∧
  (∀ (k tag : Byte) (ps : List Byte) (s : State), isRequestKind k = false → Stands s k tag ps →
     ∃ t, exec (.requestUnknownKind k tag ps) s = .next t ∧ OnlyMessages s.popRequest t ∧
       Answered s t k tag .unknown [])

/-- The reply parameters of the status requests have the lengths that their rules work out. -/
def Obligations.StatusReplyLengths : Prop :=
  ∀ s : State, s.tas.fields.length = 13 ∧ s.orientationFields.length = 60 ∧
    (modeFields s.fri.mode ++ s.fri.eyes.left.fields ++ s.fri.eyes.right.fields).length = 75 ∧
    s.scanFields.length = 55 ∧ s.audioFields.length = 38 ∧ s.powerFields.length = 52 ∧
    (s.lnk.headFields ++ s.partnerFields.1 ++ s.lnk.tailFields s.osc).length = 58 ∧
    s.lnk.counters.fields.length = 36 ∧ s.returnFields.length = 32 ∧ s.mge.fields.length = 12 ∧
    s.cst.mapFields.length = 36 ∧ s.cfl.fields.length = 66

/-! ## Power and start-up -/

/-- POWER_ON_RESET: on a part without power every block takes its power-on values, those listed among them,
the store's array and the signal on D0 standing as they were. That what the store fills has its built-in
default before the first load (the Sampler, the Integrator's axis map, the geometry record, the Power
Manager's records, the link's own request and user byte, the protect boundary and the serial number 0, and the
Channel Filter routing nothing) is the model's choice, log entry 10; and so is that on a powered part the row
is the loss of power and its return at once, log entry 8. -/
def Obligations.PowerOnResetValues : Prop :=
  (∀ s : State, s.powered = false →
    ∃ t, exec .powerOnReset s = .next t ∧ t.powered = true ∧
      t.tas = ⟨0, false, 0, 0, 0, []⟩ ∧ t.smp = Smp.reset ∧ t.ori = Ori.reset ∧
      t.fri.mode = none ∧ (∀ p, (t.fri.eyes.get p).completions = 0 ∧
        (t.fri.eyes.get p).counters = ⟨0, 0, 0, 0, 0, 0, 0, 0, 0⟩ ∧
        ∀ i : Fin 3, (t.fri.eyes.get p).slots[i].state = .free) ∧
      (∀ p, t.panel p = ⟨.off, 0, .none, 512, 0, 0, 0, none, ⟨0, 0, 0, 0⟩⟩) ∧
      t.sco.refreshDue = none ∧ t.sco.latestRefresh = 0 ∧ t.sco.refreshing = none ∧
      t.sco.geometry = ⟨5120, 5120, 1500⟩ ∧ t.aud = Aud.reset ∧
      t.pmg.contract = 4000 ∧ t.pmg.window = none ∧ t.pmg.ps = 0 ∧ t.pmg.ts = 0 ∧ t.pmg.bs = 0 ∧
      t.pmg.stage = 0 ∧ t.pmg.worst = 0 ∧ t.pmg.emergency = false ∧ t.pmg.lowScans = 0 ∧
      t.pmg.overContract = 0 ∧ t.pmg.stageChanges = 0 ∧ t.pmg.emergencies = 0 ∧
      t.pmg.scanDue = t.osc + 1000 * 750 ∧
      t.lnk = { Lnk.reset with d0Signal := s.lnk.d0Signal } ∧
      (∀ i : Fin 8, t.cfl.entries[i].enabled = false ∧ t.cfl.entries[i].hits = 0) ∧ t.cfl.unmatched = 0 ∧
      t.rch = ⟨Vector.replicate 4 .empty, none, ⟨0, 3, 1, 2⟩, 0, ⟨0, 0, 0, 0⟩, ⟨0, 0, 0, 0⟩⟩ ∧
      t.mge.requests = [] ∧ t.mge.inProgress = [] ∧ t.mge.replies = [] ∧ t.mge.reports = [] ∧
      t.mge.admitted = 0 ∧ t.mge.summary = 0 ∧ t.mge.mask = 0xFF ∧ t.mge.outstanding = false ∧
      t.mge.enables = ⟨false, true, true, true, true, true⟩ ∧ t.mge.overruns = 0 ∧
      t.mge.protocolErrors = 0 ∧ t.mge.malformed = 0 ∧ t.mge.reportDrops = 0 ∧
      t.cst.op = .loading (t.osc + ms 5) ∧ t.cst.array = s.cst.array ∧
      t.cst.boundary = 0 ∧ t.cst.serialNumber = 0 ∧ t.cst.loads = 0 ∧ t.cst.erases = 0 ∧
      t.cst.programs = 0 ∧ t.cst.refusals = 0 ∧
      t.cst.sensorRail = true ∧ t.cst.audioRail = true ∧ t.pending = s.pending ∧ t.turns = s.turns) ∧
  ∀ s t : State, exec .tetherPowerLoss s = .next t → exec .powerOnReset s = exec .powerOnReset t

/-- TETHER_POWER_LOSS: with no erase or program in progress only the power goes; one in progress is cut: its page
fails its check, by its bytes as they then stand, so that every load finds it invalid until it is written again,
and every byte that the operation was not writing stays (those that it was writing are free values with which the
page fails, log entry 7). -/
def Obligations.PowerLossCutsStoreOperation : Prop :=
  ∀ s : State, s.powered = true →
    ((∀ p e, s.cst.op ≠ .erasing p e) → (∀ p o d e, s.cst.op ≠ .programming p o d e) →
      exec .tetherPowerLoss s = .next { s with powered := false }) ∧
    ∀ (p : Fin 8) (first n : Nat), storeWf s.cst.array = true →
      ((∃ e, s.cst.op = .erasing p.val e) ∧ first = p.val * 1024 ∧ n = 1024) ∨
        (∃ o d e, s.cst.op = .programming p.val o d e ∧ first = p.val * 1024 + o ∧ n = d.length ∧
          1 ≤ n ∧ o + n ≤ 1024) →
      ∃ t, exec .tetherPowerLoss s = .next t ∧ t.powered = false ∧
        (∀ c : Cst, c.array = t.cst.array → c.pageValid p = false) ∧
        (∀ a, a < first ∨ first + n ≤ a → storeRead t.cst.array a = storeRead s.cst.array a) ∧
        t = { s with powered := false, freeIndex := t.freeIndex
                     cst := { s.cst with array := t.cst.array } }

/-- STORE_LOAD_END: 5 ms after it began a load ends; each block takes its records or their defaults (the
Sampler SENSOR, SCHEDULE and WEAR, with motion reporting on, its batch size 1 and its batch empty; the Power
Manager POWER, THROTTLE and WEAR's still emission, with an empty window; the link POWER's request and user
byte), each applied emission is held to the cap, the store map and the boundary are set, and the link enters
TRAIN at once if it may. What an owner takes of its record is in WinningRecordIsLastInHighestPage. The model's
own readings: the filter's hit counts go on (log entry 23); each owner judges its record by its own rule (log
entry 26); the first tick falls due now and is taken by SAMPLING_TICK (log entry 42); the audio port starts
now (log entry 43). -/
def Obligations.StoreLoadEndHandsOver : Prop :=
  ∀ (s : State) (ends : Nat), s.powered = true → s.cst.op = .loading ends →
    let schedule := s.cst.taken .schedule takeScheduleRecord .default
    let wear := s.cst.taken .wear takeWearRecord .default
    let power := s.cst.taken .power takePowerRecord .default
    let trains := s.lnk.state = .down ∧ s.lnk.backoff = none ∧ s.lnk.d0Signal = true
    ∃ t, exec .storeLoadEnd s = .next t ∧ t.osc = max s.osc ends ∧ t.tas = (s.advanceTo ends).tas ∧
      t.cst.op = .idle ∧ t.cst.array = s.cst.array ∧
      t.cst.map = s.cst.mapOf ∧
      t.cst.boundary = s.cst.boundaryLoaded ∧ t.cst.loads = satInc s.cst.loads ∧
      t.cst.serialNumber = s.cst.taken .ident takeIdentRecord 0 ∧
      t.smp = { s.smp with
        slotList := schedule.slots, requestedRate := schedule.rate
        calibration := s.cst.taken .sensor takeSensorRecord (.const Calibration.default)
        settings := wear.settings, reporting := true, batchSize := 1, batch := []
        tickDue := if schedule.slots = [] then none else some t.osc } ∧
      t.ori = { s.ori with axisMap := s.cst.taken .axis takeAxisRecord AxisMap.default } ∧
      t.sco.geometry = s.cst.taken .panel takePanelRecord Geometry.default ∧
      (∀ p, t.panel p = { s.panel p with applied := min (s.panel p).applied t.emissionCap }) ∧
      t.pmg = { s.pmg with
        rows := s.cst.taken .throttle takeThrottleRecord Pmg.defaultRows
        hysteresis := power.hysteresis, windowLength := power.windowLength
        stillEmission := wear.stillEmission, window := some ⟨0, 0⟩ } ∧
      (∀ i : Fin 8, t.cfl.entries[i] =
        { (s.cst.taken .filter takeFilterRecord Cfl.defaultEntries)[i] with
          hits := s.cfl.entries[i].hits }) ∧
      t.cfl.unmatched = s.cfl.unmatched ∧
      (trains → t.lnk = { s.lnk with
        ownRequest := power.request, ownUser := power.user, loaded := true, state := .train
        limit := some (t.osc + ms 100), heldWord := none
        sentRequest := power.request, sentUser := power.user
        u0 := .abilityWord ⟨true, true, 4, true, power.request, power.user⟩ (t.osc + 192) }) ∧
      (¬ trains → t.lnk = { s.lnk with
        ownRequest := power.request, ownUser := power.user, loaded := true }) ∧
      t.aud.portStart = some (s.aud.portStart.getD t.osc) ∧ t.fri = s.fri ∧ t.mge.summary = s.mge.summary

/-- A page is valid when the 16-bit sum of its first 1022 bytes equals its check word and it is not blank. Its
records are walked from byte 0 to a type byte of 0xFF, to the region's end or to a record that would run past
it. The winning record of a type is the last in the highest-numbered valid page that holds the type; its owner
takes it or its defaults, as the store map records; with no valid page every block takes its defaults, and the
boundary is 0, as it is without a fit IDENT record in page 0. What each owner takes: IDENT, SENSOR (a gain out
of range leaves its channel at the defaults), PANEL, POWER and WEAR, clamped or rounded, at their one length;
SCHEDULE at its length, with the default list for one that fails its checks; AXIS, THROTTLE and FILTER whole
or not at all. That the owners judge so is log entry 26, the walk's least record log entry 24. -/
def Obligations.WinningRecordIsLastInHighestPage : Prop :=
  (∀ (c : Cst) (p : Fin 8) (ty : RecordType),
    let byte := fun n => storeRead c.array (p.val * 1024 + n)
    (c.pageValid p = true ↔
      ((List.range 1022).map fun n => (byte n).toNat).sum % 65536 = (byte 1022).toNat + 256 * (byte 1023).toNat ∧
        ∃ n < 1024, byte n ≠ 0xFF) ∧
    ∀ before after : List StoreRecord, ∀ r : StoreRecord,
      walkRecords 511 ((List.range 1022).map byte) = before ++ r :: after → r.code = ty.code →
      (∀ x ∈ after, x.code ≠ ty.code) → c.lastIn p ty = some r.content) ∧
  (∀ (n : Nat) (t len : Byte) (rest : List Byte), walkRecords (n + 1) (t :: len :: rest) =
    if t = 0xFF ∨ rest.length < len.toNat then []
    else ⟨t, rest.take len.toNat⟩ :: walkRecords n (rest.drop len.toNat)) ∧
  (∀ (c : Cst) (ty : RecordType) (α : Type) (judge : List Byte → Option α) (default : α),
    (∀ (p : Fin 8) (r : List Byte), c.winner ty = some (p, r) →
      c.pageValid p = true ∧ c.lastIn p ty = some r ∧
      (∀ q : Fin 8, p < q → c.pageValid q = true → c.lastIn q ty = none) ∧
      c.mapEntry ty judge = ⟨some p.val, (judge r).isSome⟩ ∧
      (∀ x, judge r = some x → c.taken ty judge default = x) ∧
      (judge r = none → c.taken ty judge default = default)) ∧
    (c.winner ty = none → (∀ q : Fin 8, c.pageValid q = true → c.lastIn q ty = none) ∧
      c.mapEntry ty judge = ⟨none, false⟩ ∧ c.taken ty judge default = default) ∧
    ((∀ p, c.pageValid p = false) → c.winner ty = none ∧ c.boundaryLoaded = 0)) ∧
  (∀ c : Cst,
    (c.pageValid 0 = false ∨ c.lastIn 0 .ident = none → c.boundaryLoaded = 0) ∧
    ∀ r, c.pageValid 0 = true → c.lastIn 0 .ident = some r →
      c.boundaryLoaded = if r.length = 5 then min 8 (field r 4 1) else 0) ∧
  ∀ r : List Byte,
    let byte := fun k => field r k 1
    let word := fun k => field r k 2
    takeIdentRecord r = (if r.length = 5 then some (BitVec.ofNat 32 (field r 0 4)) else none) ∧
    (r.length ≠ 32 → takeSensorRecord r = none) ∧
    (r.length = 32 → ∃ m, takeSensorRecord r = some m ∧
      ∀ c : Channel, m.get c =
        if 8192 ≤ word (4 * c.code + 2) ∧ word (4 * c.code + 2) ≤ 32767
        then ⟨toSigned16 (word (4 * c.code)), word (4 * c.code + 2)⟩ else ⟨0, 16384⟩) ∧
    (∀ m : AxisMap, takeAxisRecord r = some m ↔ r.length = 6 ∧
      (∀ x ∈ [(0, m.yaw), (2, m.pitch), (4, m.roll)], byte x.1 = x.2.source.channel.code ∧
        byte (x.1 + 1) = if x.2.negative then 0xFF else 0x01) ∧
      m.yaw.source ≠ m.pitch.source ∧ m.yaw.source ≠ m.roll.source ∧ m.pitch.source ≠ m.roll.source) ∧
    takePanelRecord r = (if r.length = 6 then some ⟨max 256 (min 16384 (word 0)), max 256 (min 16384 (word 2)),
      min (word 4) 5000⟩ else none) ∧
    (∀ rows : Vector ThrottleRow 4, takeThrottleRecord r = some rows ↔ r.length = 20 ∧
      (∀ i : Fin 4, rows[i].emissionCap = word (5 * i.val) ∧ rows[i].emissionCap ≤ 1023 ∧
        rows[i].minAttenuation = byte (5 * i.val + 2) ∧ rows[i].maxRate.hz = word (5 * i.val + 3)) ∧
      ∀ j k : Fin 4, j < k → rows[k].emissionCap ≤ rows[j].emissionCap ∧
        rows[j].minAttenuation ≤ rows[k].minAttenuation ∧ rows[k].maxRate.hz ≤ rows[j].maxRate.hz) ∧
    (∀ es : Vector FilterEntry 8, takeFilterRecord r = some es ↔ r.length = 48 ∧
      (∀ i : Fin 8, es[i].enabled = decide (byte (6 * i.val) ≠ 0) ∧ es[i].value.toNat = word (6 * i.val + 1) ∧
        es[i].mask.toNat = word (6 * i.val + 3) ∧ es[i].dest.code = byte (6 * i.val + 5) ∧ es[i].hits = 0) ∧
      ∃ i : Fin 8, es[i].enabled = true ∧ es[i].dest = .control) ∧
    takePowerRecord r = (if r.length = 5 then some ⟨max 8 (min 80 (byte 0)), BitVec.ofNat 8 (byte 1),
      min (word 2) 1500, if byte 4 < 32 then 16 else if byte 4 < 64 then 32 else if byte 4 < 128 then 64 else 128⟩
      else none) ∧
    (r.length < 3 ∨ r.length ≠ 3 + 3 * byte 2 → takeScheduleRecord r = none) ∧
    (3 ≤ r.length → r.length = 3 + 3 * byte 2 → ∃ q, takeScheduleRecord r = some q ∧
      q.rate.hz = (if word 0 < 250 then 100 else if word 0 < 500 then 250 else if word 0 < 1000 then 500 else 1000) ∧
      (∀ l, slotListOf (byte 2) (r.drop 3) = some l → q.slots = l) ∧
      (slotListOf (byte 2) (r.drop 3) = none → q.slots = Smp.defaultSlots)) ∧
    takeWearRecord r = (if r.length = 12 then some ⟨⟨word 0, word 2, max 1 (min 600 (word 4)),
      toSigned16 (word 6), min (word 8) 32767⟩, min (word 10) 1023⟩ else none)

/-! ## Tether Time and timed actions -/

/-- R7. Read Time answers the clock state and, with clear set, clears the three counts; the valid flag and
Tether Time stay. -/
def Obligations.ReadTimeAnswersAndClears : Prop :=
  ∀ (tag b : Byte) (s : State), Stands s 0x10 tag [b] →
    ∃ t, exec (.readTime tag [b]) s = .next t ∧
      OnlyMessages (s.popRequest.setTas (if b = 0 then s.tas
        else { s.tas with stepCount := 0, markCount := 0, malformedMarks := 0 })) t ∧
      Answered s t 0x10 tag .done (packTime s.tas.now ++ packFlag s.tas.valid ++
        packCount s.tas.stepCount ++ packCount s.tas.markCount ++ packCount s.tas.malformedMarks)

/-- Add Action stores an entry that passes every check and whose due time, if it has one, is still to come, at
the place table order gives it; with a due time that has come it fires the action at once and stores nothing: the
action of any of the nine kinds is delivered (what delivery is, GroupTriggerFiresGroup says), and its Action Done
report goes out with cause ADD and late flag set if the enable then is on, else none does. -/
def Obligations.AddActionStoresOrFires : Prop :=
  ∀ (tag : Byte) (ps : List Byte) (k : ActionKind) (tr : Trigger) (s : State), Stands s 0x11 tag ps →
    10 ≤ ps.length → ActionKind.ofCode (ps.getD 9 0) = some k → ps.length = 10 + k.paramLength →
    triggerOf (field ps 1 1) (field ps 2 6) (field ps 8 1) = some tr →
    (∀ e ∈ s.tas.table, e.id ≠ ps.headD 0) → s.tas.table.length < 16 →
    ((∀ d, tr.due = some d → s.tas.now.toNat < d.toNat) →
      ∃ t, exec (.addAction tag ps) s = .next t ∧
        OnlyMessages (s.popRequest.setTas { s.tas with
          table := insertAction ⟨ps.headD 0, tr, k, ps.drop 10⟩ s.tas.table }) t ∧
        Answered s t 0x11 tag .done ([ps.headD 0] ++ pack8 0 ++ pack8 (s.tas.table.length + 1))) ∧
    ∀ d, tr.due = some d → d.toNat ≤ s.tas.now.toNat →
      let a := k.deliver (ps.drop 10) s.popRequest
      ∃ t, exec (.addAction tag ps) s = .next t ∧ OnlyMessages a.state t ∧ t.tas = s.tas ∧
        Answered a.state t 0x11 tag .done ([ps.headD 0] ++ pack8 1 ++ pack8 s.tas.table.length) ∧
        (a.state.mge.enables.actionDone = true → Reported t .actionDone
          ([ps.headD 0, k.code] ++ pack8 a.status.code ++ packFlag true ++ pack8 4 ++ packTime s.tas.now)) ∧
        (a.state.mge.enables.actionDone = false →
          ∀ r ∈ t.outgoingReports, r.kind = .actionDone → r ∈ s.outgoingReports)

/-- A refused Add Action changes nothing and answers the status of the first check that fails, with
disposition NONE; the id of a request that carries none is a free value (log entry 11). -/
def Obligations.AddActionRefusals : Prop :=
  (∀ (tag : Byte) (s : State), Stands s 0x11 tag [] → ∃ t b, exec (.addAction tag []) s = .next t ∧
    OnlyMessages (s.popRequest.setFree (s.freeIndex + 1)) t ∧
    Answered s t 0x11 tag .length ([b] ++ pack8 2 ++ pack8 s.tas.table.length)) ∧
  ∀ (tag : Byte) (ps : List Byte) (s : State), Stands s 0x11 tag ps → ps ≠ [] →
    let refused := fun st : Status => ∃ t, exec (.addAction tag ps) s = .next t ∧
      OnlyMessages s.popRequest t ∧
      Answered s t 0x11 tag st ([ps.headD 0] ++ pack8 2 ++ pack8 s.tas.table.length)
    (ps.length < 10 → refused .length) ∧
    (10 ≤ ps.length → ActionKind.ofCode (ps.getD 9 0) = none → refused .range) ∧
    ∀ k, 10 ≤ ps.length → ActionKind.ofCode (ps.getD 9 0) = some k →
      (ps.length ≠ 10 + k.paramLength → refused .length) ∧
      (ps.length = 10 + k.paramLength →
        (triggerOf (field ps 1 1) (field ps 2 6) (field ps 8 1) = none → refused .range) ∧
        (triggerOf (field ps 1 1) (field ps 2 6) (field ps 8 1) ≠ none →
          ((∃ e ∈ s.tas.table, e.id = ps.headD 0) → refused .inUse) ∧
          ((∀ e ∈ s.tas.table, e.id ≠ ps.headD 0) → 16 ≤ s.tas.table.length → refused .full)))

/-- R17. Cancel Action removes the entry that has the id without firing it and without an Action Done report, or
answers NOT_FOUND and leaves the table as it is. -/
def Obligations.CancelActionRemovesEntry : Prop :=
  ∀ (tag id : Byte) (s : State), Stands s 0x12 tag [id] →
    ((∃ e ∈ s.tas.table, e.id = id) →
      ∃ t, exec (.cancelAction tag [id]) s = .next t ∧
        OnlyMessages (s.popRequest.setTas { s.tas with
          table := s.tas.table.filter (fun e => decide (e.id ≠ id)) }) t ∧
        (∀ r ∈ t.outgoingReports, r.kind = .actionDone → r ∈ s.outgoingReports) ∧
        Answered s t 0x12 tag .done
          ([id] ++ pack8 (s.tas.table.filter (fun e => decide (e.id ≠ id))).length)) ∧
    ((∀ e ∈ s.tas.table, e.id ≠ id) →
      ∃ t, exec (.cancelAction tag [id]) s = .next t ∧ OnlyMessages s.popRequest t ∧
        (∀ r ∈ t.outgoingReports, r ∈ s.outgoingReports) ∧
        Answered s t 0x12 tag .notFound ([id] ++ pack8 s.tas.table.length))

/-- R18. List Actions answers Tether Time, the number of entries and each entry in table order: id, form,
due time or 0, group or 0, kind; parameters are not returned. -/
def Obligations.ListActionsReturnsTable : Prop :=
  ∀ (tag : Byte) (s : State), Stands s 0x13 tag [] →
    ∃ t, exec (.listActions tag []) s = .next t ∧ OnlyMessages s.popRequest t ∧
      Answered s t 0x13 tag .done (packTime s.tas.now ++ pack8 s.tas.table.length ++
        (s.tas.table.map fun e => [e.id] ++
          (match e.trigger with
            | .timed d => pack8 1 ++ packTime d ++ pack8 0
            | .grouped g => pack8 2 ++ packTime 0 ++ pack8 g
            | .timedGrouped d g => pack8 3 ++ packTime d ++ pack8 g) ++ [e.kind.code]).flatten)

/-- Group Trigger fires every entry of the group, whatever its due time, and no other, with cause GROUP at Tether
Time, and its reply counts the entries fired, 0 included; groups above 7 are refused. Firing, whatever its
cause: entries fire in table order, each removed before its action is delivered, and each is reported with its id,
kind, the status its target gave, late flag, cause and fire time if the enable is on. A delivered action is at its
target what the matching host request is: the same state, but for messages, and the same status; the Marker
has no other effect. That each report is handed over before the next entry is delivered is log entry 46. -/
def Obligations.GroupTriggerFiresGroup : Prop :=
  (∀ (tag g : Byte) (s : State), Stands s 0x14 tag [g] →
     (g.toNat ≤ 7 →
       let es := s.tas.table.filter fun e => decide (e.trigger.group = some g.toNat)
       ∃ t, exec (.groupTrigger tag [g]) s = .next t ∧
         OnlyMessages (s.popRequest.fireAll es .group s.tas.now) t ∧
         Answered s t 0x14 tag .done (pack8 g.toNat ++ pack8 es.length) ∧
         (s.tas.tableOk → t.tas = { s.tas with
           table := s.tas.table.filter (fun e => decide (e.trigger.group ≠ some g.toNat)) }) ∧
         t.mge.requests = s.mge.requests.tail ∧ t.cst = s.cst ∧ t.cfl = s.cfl ∧ t.pmg = s.pmg) ∧
     (7 < g.toNat → ∃ t, exec (.groupTrigger tag [g]) s = .next t ∧ OnlyMessages s.popRequest t ∧
       Answered s t 0x14 tag .range [])) ∧
  (∀ (tag g : Byte) (e : Action) (s : State), Stands s 0x14 tag [g] → g.toNat ≤ 7 →
     s.tas.table = [e] → e.trigger.group = some g.toNat → e.kind = .marker →
     s.mge.enables.actionDone = true →
     ∃ t, exec (.groupTrigger tag [g]) s = .next t ∧
       OnlyMessages (s.popRequest.setTas { s.tas with table := [] }) t ∧
       Answered s t 0x14 tag .done (pack8 g.toNat ++ pack8 1) ∧
       Reported t .actionDone
         ([e.id, 0x1F] ++ pack8 0 ++ packFlag false ++ pack8 5 ++ packTime s.tas.now)) ∧
  (∀ p ∈ [(FireCause.expiry, false, 1), (.step, true, 2), (.set, true, 3), (.add, true, 4),
       (.group, false, 5)], ∀ (time : Time) (s : State),
     s.fireAll [] p.1 time = s ∧
     ∀ (e : Action) (es : List Action),
       let a := e.kind.deliver e.params (s.setTas { s.tas with
         table := s.tas.table.filter fun x => decide (x.id ≠ e.id) })
       ∃ y, s.fireAll (e :: es) p.1 time = y.fireAll es p.1 time ∧ OnlyMessages a.state y ∧
         (a.state.mge.enables.actionDone = false → y = a.state) ∧
         (a.state.mge.enables.actionDone = true → Reported y .actionDone ([e.id, e.kind.code] ++
           pack8 a.status.code ++ packFlag p.2.1 ++ pack8 p.2.2 ++ packTime time))) ∧
  (∀ p ∈ ([(.setDisplayMode, 0x38, .setDisplayMode), (.setEmission, 0x44, .setEmission),
       (.panelsShow, 0x42, .panelsShow), (.panelsStandby, 0x43, .panelsStandby),
       (.setSamplingRate, 0x21, .setSamplingRate), (.setAttenuation, 0x50, .setAttenuation),
       (.startCapture, 0x51, .startCapture), (.stopCapture, 0x52, .stopCapture)] :
       List (ActionKind × Byte × (Byte → List Byte → Instr))),
     ∀ (tag : Byte) (ps : List Byte) (s : State), Stands s p.2.1 tag ps →
       let a := p.1.deliver ps s.popRequest
       ∃ t, exec (p.2.2 tag ps) s = .next t ∧ OnlyMessages a.state t ∧
         Answered a.state t p.2.1 tag a.status a.fields) ∧
  ∀ (ps : List Byte) (s : State), (ActionKind.marker.deliver ps s).state = s ∧
    (ActionKind.marker.deliver ps s).status = .done

/-- ACTION_EXPIRY: Tether Time comes to the due time of the head, and every entry with that due time fires, in
table order, with cause EXPIRY, late flag clear and the due time as its fire time; the others stay in their order.
Markers due together, where the Report Queue has room, are each reported so and do nothing else. With no timed
entry nothing expires. -/
def Obligations.ExpiryFiresEveryEntryDue : Prop :=
  (∀ (s : State) (e : Action) (rest : List Action) (d : Time), s.powered = true →
    s.tas.table = e :: rest → e.trigger.due = some d →
    let es := s.tas.table.filter fun x => decide (x.trigger.due = some d)
    exec .actionExpiry s = .next ((s.awaitTime d).fireAll es .expiry d) ∧
    (s.tas.tableOk → s.tas.now.toNat ≤ d.toNat →
      (∃ t, exec .actionExpiry s = .next t ∧ t.tas = { s.tas with
          now := d, table := s.tas.table.filter (fun x => decide (x.trigger.due ≠ some d)) } ∧
        t.mge.requests = s.mge.requests ∧ t.cst = s.cst ∧ t.cfl = s.cfl ∧ t.pmg = s.pmg) ∧
      ((∀ x ∈ es, x.kind = .marker) → s.mge.enables.actionDone = true →
        s.mge.reports.length + es.length ≤ 8 →
        ∃ t, exec .actionExpiry s = .next t ∧
          OnlyMessages ((s.awaitTime d).setTas { s.tas with
            now := d, table := s.tas.table.filter (fun x => decide (x.trigger.due ≠ some d)) }) t ∧
          ∀ x ∈ es, Reported t .actionDone
            ([x.id, 0x1F] ++ pack8 0 ++ packFlag false ++ pack8 1 ++ packTime d)))) ∧
  ∀ s : State, s.powered = true → (∀ e, s.tas.table.head? = some e → e.trigger.due = none) →
    exec .actionExpiry s = .next s

/-- A Time Mark: a payload of another length than 6 is counted malformed; the first good mark sets the
clock and is no step; an offset within 2 µs changes nothing; any other is a step, counted, with TIME set and a
Time Step report of the clamped offset. A set or step forward fires every timed entry that it reaches or passes,
in table order, with cause SET or STEP at the new Tether Time, and then the Audio Unit looks at its head; one
backward fires none. The order of TIME, the report and the firings is log entry 21. -/
def Obligations.TimeMarkOutcomes : Prop :=
  ∀ (payload : List Byte) (s : State),
    let host : Time := BitVec.ofNat 48 (field payload 0 6)
    let offset := (host - s.tas.now).toInt
    let passed := s.tas.table.filter fun e =>
      e.trigger.due.any fun d => decide (d.toNat ≤ host.toNat)
    let set := { s.tas with now := host, valid := true, markCount := satInc s.tas.markCount }
    let stepped := { set with stepCount := satInc s.tas.stepCount }
    let reported := fun x : State => s.mge.enables.timeStep = true → Reported x .timeStep
      (packS32 (max (-2147483648) (min 2147483647 offset)) ++ packTime host ++ packCount stepped.stepCount)
    (payload.length ≠ 6 → s.timeMark payload =
      s.setTas { s.tas with malformedMarks := satInc s.tas.malformedMarks }) ∧
    (payload.length = 6 → s.tas.valid = false →
      (host.toNat ≤ s.tas.now.toNat → s.timeMark payload = s.setTas set) ∧
      (s.tas.now.toNat < host.toNat →
        s.timeMark payload = ((s.setTas set).fireAll passed .set host).audioStep)) ∧
    (payload.length = 6 → s.tas.valid = true →
      (-2 ≤ offset → offset ≤ 2 → s.timeMark payload =
        s.setTas { s.tas with markCount := satInc s.tas.markCount }) ∧
      (2 < offset → ∃ x, OnlyMessages ((s.setTas stepped).withBits bitTime) x ∧ reported x ∧
        s.timeMark payload = (x.fireAll passed .step host).audioStep) ∧
      (offset < -2 → OnlyMessages ((s.setTas stepped).withBits bitTime) (s.timeMark payload) ∧
        reported (s.timeMark payload)))

/-! ## Motion sampling -/

/-- Set Schedule with a list that passes the checks takes effect at dispatch: the list replaces the old one,
still time, previous values and wear runs start again, a list without PROX makes the wear state WORN, a device
left without a slot is OK with count 0, and the presence state follows with its cap and its report; a set in
progress goes on; an empty list stops the ticks, one after an empty list starts them one period on. Of two
devices dropped at once INERTIAL is reported first (log entry 44); a list filled while a load runs or is owed
starts no ticks yet (log entry 23); the reports carry the Tether Time of the dispatch (log entry 39). A length
that does not fit the count is answered LENGTH, a list that fails a check RANGE, and nothing changes. A list
passes with at most 12 slots, each of a named device and a channel of that device or NONE, no channel on two
slots. -/
def Obligations.SetScheduleReplacesList : Prop :=
  (∀ (tag n : Byte) (bs : List Byte) (l : List SensorSlot) (s : State), Stands s 0x20 tag (n :: bs) →
    bs.length = 3 * n.toNat → slotListOf n.toNat bs = some l →
    let m := s.smp
    let has := fun d => l.any fun x : SensorSlot => decide (x.device = d)
    let removed := m.removed && l.any fun x => decide (x.channel = some .prox)
    let presence : Presence := if removed then .removed else if m.still then .still else .active
    let faults : PerDevice DeviceFault :=
      ⟨if has .inertial then m.faults.inertial else ⟨false, 0⟩,
        if has .proximity then m.faults.proximity else ⟨false, 0⟩⟩
    let x := s.popRequest.setSmp { m with
      slotList := l, stillTime := 0, previous := .const none, removalRun := 0, returnRun := 0
      removed := removed, presence := presence, faults := faults }
    let loads := match s.cst.op with
      | .loading _ => true
      | _ => s.cst.loadOwed
    let due := if l = [] then none
      else if m.slotList = [] ∧ loads = false then some (s.osc + x.rateInForce.period * 750)
      else m.tickDue
    let y := x.setSmp { x.smp with tickDue := due }
    let z := if presence = m.presence then y else y.setSco { y.sco with
      panels := ⟨{ y.sco.panels.left with applied := min y.sco.panels.left.applied x.emissionCap },
        { y.sco.panels.right with applied := min y.sco.panels.right.applied x.emissionCap }⟩ }
    let report := fun (t : State) (cause : Nat) (inertial proximity : Bool) =>
      s.mge.enables.presence = true → Reported t .presence (pack8 cause ++ pack8 presence.code ++
        packFlag removed ++ packFlag m.still ++ packFlag inertial ++ packFlag proximity ++
        packTime s.tas.now)
    ∃ t, exec (.setSchedule tag (n :: bs)) s = .next t ∧ OnlyMessages z t ∧
      Answered s t 0x20 tag .done (pack8 l.length) ∧
      (presence ≠ m.presence → report t 1 m.faults.inertial.faulted m.faults.proximity.faulted) ∧
      (has .inertial = false → m.faults.inertial.faulted = true →
        report t 3 false m.faults.proximity.faulted) ∧
      (has .proximity = false → m.faults.proximity.faulted = true →
        report t 3 faults.inertial.faulted false)) ∧
  (∀ (n : Nat) (bs : List Byte) (l : List SensorSlot), bs.length = 3 * n →
    (slotListOf n bs = some l ↔ n ≤ 12 ∧ l.length = n ∧
      (∀ (i : Nat) (x : SensorSlot), l[i]? = some x →
        field bs (3 * i) 1 = (if x.device = .inertial then 0 else 1) ∧ bs.getD (3 * i + 1) 0 = x.address ∧
        field bs (3 * i + 2) 1 = (match x.channel with
          | none => 8
          | some c => c.code) ∧
        ∀ c, x.channel = some c → x.device = if c = .prox then .proximity else .inertial) ∧
      ∀ (i j : Nat) (x y : SensorSlot), l[i]? = some x → l[j]? = some y → x.channel ≠ none →
        x.channel = y.channel → i = j)) ∧
  ∀ (tag : Byte) (ps : List Byte) (s : State), Stands s 0x20 tag ps →
    let refused := fun st : Status => ∃ t, exec (.setSchedule tag ps) s = .next t ∧
      OnlyMessages s.popRequest t ∧ Answered s t 0x20 tag st []
    (ps.length ≠ 1 + 3 * field ps 0 1 → refused .length) ∧
    (ps.length = 1 + 3 * field ps 0 1 → slotListOf (field ps 0 1) (ps.drop 1) = none → refused .range)

/-- The motion settings: Set Sampling Rate rounds down, Set Calibration replaces one channel's bias and gain,
or is RANGE for no named channel or a gain outside 8192 to 32767, Set Stillness and Set Wear clamp, Set Motion
Reporting clamps the batch and empties it. The queries: Read Samples answers the held records of the range, or
RANGE for a count of 0 or above 8, and changes nothing; Read Motion Status and Read Orientation answer and,
with clear set, clear their counters and nothing else. -/
def Obligations.MotionRequestsApplied : Prop :=
  ((∀ (tag : Byte) (ps : List Byte) (s : State), Stands s 0x21 tag ps → ps.length = 2 →
     let r := SampleRate.roundDown (field ps 0 2)
     let x := s.popRequest.setSmp { s.smp with requestedRate := r }
     ∃ t, exec (.setSamplingRate tag ps) s = .next t ∧ OnlyMessages x t ∧
       Answered s t 0x21 tag .done (pack16 r.hz ++ pack16 x.rateInForce.hz)) ∧
   (∀ (tag : Byte) (ps : List Byte) (c : Channel) (s : State), Stands s 0x22 tag ps → ps.length = 5 →
     Channel.ofCode (field ps 0 1) = some c → 8192 ≤ field ps 3 2 → field ps 3 2 ≤ 32767 →
     ∃ t, exec (.setCalibration tag ps) s = .next t ∧ OnlyMessages (s.popRequest.setSmp { s.smp with
         calibration := s.smp.calibration.set c ⟨toSigned16 (field ps 1 2), field ps 3 2⟩ }) t ∧
       Answered s t 0x22 tag .done ps) ∧
   (∀ (tag : Byte) (ps : List Byte) (s : State), Stands s 0x22 tag ps → ps.length = 5 →
     Channel.ofCode (field ps 0 1) = none ∨ field ps 3 2 < 8192 ∨ 32767 < field ps 3 2 →
     ∃ t, exec (.setCalibration tag ps) s = .next t ∧ OnlyMessages s.popRequest t ∧
       Answered s t 0x22 tag .range []) ∧
   (∀ (tag : Byte) (ps : List Byte) (s : State), Stands s 0x23 tag ps → ps.length = 6 →
     let d := max 1 (min 600 (field ps 4 2))
     ∃ t, exec (.setStillness tag ps) s = .next t ∧ OnlyMessages (s.popRequest.setSmp { s.smp with
         settings := { s.smp.settings with
           gyroThreshold := field ps 0 2, accelThreshold := field ps 2 2, stillDelay := d } }) t ∧
       Answered s t 0x23 tag .done (pack16 (field ps 0 2) ++ pack16 (field ps 2 2) ++ pack16 d)) ∧
   (∀ (tag : Byte) (ps : List Byte) (s : State), Stands s 0x24 tag ps → ps.length = 4 →
     let w := toSigned16 (field ps 0 2)
     let h := min (field ps 2 2) 32767
     ∃ t, exec (.setWear tag ps) s = .next t ∧ OnlyMessages (s.popRequest.setSmp { s.smp with
         settings := { s.smp.settings with wearThreshold := w, wearHysteresis := h } }) t ∧
       Answered s t 0x24 tag .done (packS16 w ++ pack16 h)) ∧
   (∀ (tag e b : Byte) (s : State), Stands s 0x25 tag [e, b] →
     let n := max 1 (min 8 b.toNat)
     ∃ t, exec (.setMotionReporting tag [e, b]) s = .next t ∧
       OnlyMessages (s.popRequest.setSmp { s.smp with
         reporting := decide (e ≠ 0), batchSize := n, batch := [] }) t ∧
       Answered s t 0x25 tag .done (packFlag (decide (e ≠ 0)) ++ pack8 n))) ∧
  ((∀ (tag : Byte) (ps : List Byte) (s : State), Stands s 0x26 tag ps → ps.length = 5 →
     1 ≤ field ps 4 1 → field ps 4 1 ≤ 8 →
     let rs := s.smp.ring.filter fun r =>
       decide (field ps 0 4 ≤ r.seq.toNat ∧ r.seq.toNat < field ps 0 4 + field ps 4 1)
     ∃ t, exec (.readSamples tag ps) s = .next t ∧ OnlyMessages s.popRequest t ∧
       Answered s t 0x26 tag .done (pack32 (oldestSeq (s.smp.ring.map SampleRecord.seq)) ++
         pack32 (newestSeq (s.smp.ring.map SampleRecord.seq)) ++ pack8 rs.length ++
         (rs.map s.heldEntry).flatten)) ∧
   (∀ (tag : Byte) (ps : List Byte) (s : State), Stands s 0x26 tag ps → ps.length = 5 →
     field ps 4 1 = 0 ∨ 8 < field ps 4 1 →
     ∃ t, exec (.readSamples tag ps) s = .next t ∧ OnlyMessages s.popRequest t ∧
       Answered s t 0x26 tag .range []) ∧
   (∀ (tag b : Byte) (s : State), Stands s 0x27 tag [b] →
     ∃ t, exec (.readMotionStatus tag [b]) s = .next t ∧
       OnlyMessages (s.popRequest.setSmp (if b = 0 then s.smp else { s.smp with
         overruns := 0, failedReads := ⟨0, 0⟩, saturatedValues := 0, faultEntries := 0 })) t ∧
       Answered s t 0x27 tag .done s.motionFields) ∧
   (∀ (tag b : Byte) (s : State), Stands s 0x30 tag [b] →
     ∃ t, exec (.readOrientation tag [b]) s = .next t ∧
       OnlyMessages (s.popRequest.setOri (if b = 0 then s.ori else { s.ori with
         intervalClamps := 0, lookups := 0, missing := 0, aged := 0 })) t ∧
       Answered s t 0x30 tag .done s.orientationFields))

/-- SAMPLING_TICK: a tick schedules the next one period later; with no set in progress it starts one with
Tether Time as its sample time, else it is skipped, counted, and sets MOTION. The rate in force is the lowest
of the requested rate, that of the stage's row and, while presence is STILL, 100 Hz; its period is one second
by it. -/
def Obligations.TickStartsOrIsSkipped : Prop :=
  (∀ s : State,
    s.rateInForce.hz = min (min s.smp.requestedRate.hz s.pmg.rows[s.pmg.stage].maxRate.hz)
      (if s.smp.presence = .still then 100 else 1000) ∧
    s.rateInForce.period = 1000000 / s.rateInForce.hz) ∧
  ∀ (s : State) (due : Nat), s.powered = true → s.smp.tickDue = some due →
    let u := s.advanceTo due
    let p := s.rateInForce.period
    (s.smp.set = none →
      exec .samplingTick s = .next (u.setSmp { s.smp with
        tickDue := some (due + p * 750)
        set := some ⟨s.smp.slotList, s.smp.slotList, u.tas.now, p, .const .absent, ⟨false, false⟩,
          u.osc, none⟩ })) ∧
    (s.smp.set ≠ none → ∃ t, exec .samplingTick s = .next t ∧
      OnlyMessages ((u.setSmp { s.smp with
        tickDue := some (due + p * 750)
        overruns := satInc s.smp.overruns
        skipped := min 255 (s.smp.skipped + 1) }).withBits bitMotion) t)

/-- SENSOR_READY_LINE_RAISED, SENSOR_READ_END and SENSOR_READ_TIMEOUT of a slot that is not the last of
its set: the ready line is seen within 100 µs of the start; 24 µs later a good read gives its channel the
corrected value; with no ready line the read fails 100 µs after its start and is counted; a slot without a channel
gives no value, good or failed, but its failure counts; the next read begins when this one ends. A raw word is
corrected as (raw − bias) × gain / 16384, rounded with halves away from zero and saturated. -/
def Obligations.SensorReadsAdvanceSet : Prop :=
  (∀ (s : State) (st : SampleSet) (x y : SensorSlot) (rest : List SensorSlot), s.powered = true →
    s.smp.set = some st → st.todo = x :: y :: rest →
    (st.readyAt = none → s.osc ≤ st.readStart + us 100 →
      exec (.sensorReadyLineRaised x.device) s =
        .next (s.setSmp { s.smp with set := some { st with readyAt := some s.osc } })) ∧
    (∀ (word : BitVec 16) (ready : Nat), st.readyAt = some ready →
      let u := s.advanceTo (ready + us 24)
      let next := { st with todo := y :: rest, readStart := ready + us 24, readyAt := none }
      (∀ c : Channel, x.channel = some c →
        let v := (s.smp.calibration.get c).correct word
        exec (.sensorReadEnd word) s = .next (u.setSmp { s.smp with
          held := s.smp.held.set c v.1
          saturatedValues := if v.2 then satInc s.smp.saturatedValues else s.smp.saturatedValues
          set := some { next with readings := st.readings.set c (.good v.1 v.2) } })) ∧
      (x.channel = none →
        exec (.sensorReadEnd word) s = .next (u.setSmp { s.smp with set := some next }))) ∧
    (st.readyAt = none →
      let u := s.advanceTo (st.readStart + us 100)
      let failed := { s.smp with
        failedReads := s.smp.failedReads.set x.device (satInc (s.smp.failedReads.get x.device)) }
      let next := { st with
        todo := y :: rest, readStart := st.readStart + us 100
        failing := st.failing.set x.device true }
      (∀ c : Channel, x.channel = some c → exec .sensorReadTimeout s =
        .next (u.setSmp { failed with set := some { next with readings := st.readings.set c .failed } })) ∧
      (x.channel = none → exec .sensorReadTimeout s =
        .next (u.setSmp { failed with set := some next })))) ∧
  ∀ (c : Calibration) (raw : BitVec 16),
    let n := (raw.toInt - c.bias) * c.gain
    let q := if 0 ≤ n then (n + 8192) / 16384 else -((-n + 8192) / 16384)
    c.correct raw = (max (-32768) (min 32767 q), decide (q < -32768 ∨ 32767 < q))

/-- The last read of a set, good or failed, of a channel or of none, completes it. Its record, with the next
sequence number (1 after the greatest, which empties ring and history first), enters the Sample Ring and the
Integrator's history at once: its values are those of the good reads, and for a failed one the held value,
STALE. Then the devices' fault states (INERTIAL first, log entry 44), with a report at each entry and exit,
stillness, wear and presence are judged, each change of presence capped and reported. Stillness is R32's four
conditions, also for the first record after a reset or Set Schedule under a list without acceleration channels
(the model's choice, log entry 48). At the end the record joins the batch, which
when full is offered as a motion report. -/
def Obligations.LastReadCompletesSet : Prop :=
  let motion : List Channel := [.gx, .gy, .gz, .ax, .ay, .az]
  let completes := fun (u : State) (st : SampleSet) (o : Host.Outcome State Fault Refusal) =>
    let m := u.smp
    let w := m.settings
    let wraps := m.lastSeq = BitVec.allOnes 32
    let enters := fun d => (∃ x ∈ st.slots, x.device = d) ∧ st.failing.get d = true ∧
      (m.faults.get d).faulted = false ∧ 8 ≤ (m.faults.get d).failing + 1
    let clears := fun d => (∃ x ∈ st.slots, x.device = d) ∧ st.failing.get d = false ∧
      (m.faults.get d).faulted = true
    let fault := fun (cause : Nat) (inertial proximity : Bool) => pack8 cause ++ pack8 m.presence.code ++
      packFlag m.removed ++ packFlag m.still ++ packFlag inertial ++ packFlag proximity ++ packTime u.tas.now
    let isStill := fun r : SampleRecord => (∃ c ∈ motion, r.values.get c ≠ none) ∧
      (∀ c ∈ motion, ∀ v, r.values.get c = some v → v.stale = false) ∧
      (∀ c ∈ [Channel.gx, .gy, .gz], ∀ v, r.values.get c = some v →
        v.value.natAbs ≤ w.gyroThreshold) ∧
      ∀ c ∈ [Channel.ax, .ay, .az], ∀ v, r.values.get c = some v →
        ∃ p, m.previous.get c = some p ∧ (v.value - p).natAbs ≤ w.accelThreshold
    let batch := fun (r : SampleRecord) (i : Ori) => m.batch ++ [⟨r, i.yaw, i.pitch, i.roll⟩]
    ∃ t r, o = .next t ∧ r.seq = (if wraps then 1 else m.lastSeq + 1) ∧ r.time = st.sampleTime ∧
      r.skipped = m.skipped ∧
      (∀ c, r.values.get c = match st.readings.get c with
        | .absent => none
        | .good v saturated => some ⟨v, false, saturated⟩
        | .failed => some ⟨m.held.get c, true, false⟩) ∧
      t.smp.ring = push64 (if wraps then [] else m.ring) r ∧ t.smp.lastSeq = r.seq ∧
      t.smp.skipped = 0 ∧ t.smp.set = none ∧ t.ori = u.ori.integrate r (decide wraps) ∧
      -- R28
      (∀ d, ((∀ x ∈ st.slots, x.device ≠ d) → t.smp.faults.get d = m.faults.get d) ∧
        ((∃ x ∈ st.slots, x.device = d) →
          (st.failing.get d = false → t.smp.faults.get d = ⟨false, 0⟩) ∧
          (st.failing.get d = true → (m.faults.get d).faulted = true →
            t.smp.faults.get d = m.faults.get d) ∧
          (st.failing.get d = true → (m.faults.get d).faulted = false →
            (m.faults.get d).failing + 1 < 8 →
            t.smp.faults.get d = ⟨false, (m.faults.get d).failing + 1⟩)) ∧
        (enters d → t.smp.faults.get d = ⟨true, 8⟩ ∧ t.mge.summary &&& bitMotion = bitMotion)) ∧
      t.smp.faultEntries = satAdd m.faultEntries
        (([Device.inertial, .proximity].filter fun d => decide (enters d)).length) ∧
      ((∀ d, ¬ enters d) → t.mge.summary = u.mge.summary) ∧
      (u.mge.enables.presence = true →
        (enters .inertial → Reported t .presence (fault 2 true m.faults.proximity.faulted)) ∧
        (clears .inertial → Reported t .presence (fault 3 false m.faults.proximity.faulted)) ∧
        (enters .proximity → Reported t .presence (fault 2 t.smp.faults.inertial.faulted true)) ∧
        (clears .proximity → Reported t .presence (fault 3 t.smp.faults.inertial.faulted false))) ∧
      -- R32, R33
      (isStill r → t.smp.stillTime = min (m.stillTime + st.period) (w.stillDelay * 1000000)) ∧
      (¬ isStill r → t.smp.stillTime = 0) ∧
      (m.still = true → (t.smp.still = true ↔ isStill r)) ∧
      (m.still = false → (t.smp.still = true ↔ w.stillDelay * 1000000 ≤ t.smp.stillTime)) ∧
      (∀ c ∈ [Channel.ax, .ay, .az], t.smp.previous.get c = (r.values.get c).map ChannelValue.value) ∧
      -- R34
      (r.values.prox = none → t.smp.removed = m.removed ∧ t.smp.removalRun = m.removalRun ∧
        t.smp.returnRun = m.returnRun) ∧
      (∀ v, r.values.prox = some v →
        let away := if v.stale = false ∧ v.value < w.wearThreshold then m.removalRun + st.period else 0
        let back := if v.stale = false ∧ w.wearThreshold + w.wearHysteresis < v.value
          then m.returnRun + st.period else 0
        (m.removed = false → 500000 ≤ away →
          t.smp.removed = true ∧ t.smp.removalRun = 0 ∧ t.smp.returnRun = 0) ∧
        (m.removed = true → 500000 ≤ back →
          t.smp.removed = false ∧ t.smp.removalRun = 0 ∧ t.smp.returnRun = 0) ∧
        ((m.removed = false ∧ away < 500000) ∨ (m.removed = true ∧ back < 500000) →
          t.smp.removed = m.removed ∧ t.smp.removalRun = away ∧ t.smp.returnRun = back)) ∧
      -- R35
      t.smp.presence =
        (if t.smp.removed then .removed else if t.smp.still then .still else .active) ∧
      (t.smp.presence = m.presence → t.sco = u.sco) ∧
      (t.smp.presence ≠ m.presence →
        t.sco = { u.sco with panels :=
          ⟨{ u.sco.panels.left with applied := min u.sco.panels.left.applied t.emissionCap },
            { u.sco.panels.right with applied := min u.sco.panels.right.applied t.emissionCap }⟩ } ∧
        (u.mge.enables.presence = true → Reported t .presence (pack8 1 ++ pack8 t.smp.presence.code ++
          packFlag t.smp.removed ++ packFlag t.smp.still ++ packFlag t.smp.faults.inertial.faulted ++
          packFlag t.smp.faults.proximity.faulted ++ packTime u.tas.now))) ∧
      -- R36
      (m.reporting = false → t.smp.batch = m.batch) ∧
      (m.reporting = true → m.batch.length + 1 < m.batchSize → t.smp.batch = batch r t.ori) ∧
      (m.reporting = true → m.batchSize ≤ m.batch.length + 1 →
        t.smp.batch = [] ∧ .motion (motionReport (batch r t.ori)) ∈ t.items) ∧
      t.smp.slotList = m.slotList ∧ t.smp.tickDue = m.tickDue ∧ t.smp.held = m.held ∧
      t.smp.settings = w ∧ t.smp.failedReads = m.failedReads ∧
      t.smp.saturatedValues = m.saturatedValues ∧ t.tas = u.tas ∧ t.osc = u.osc ∧ t.fri = u.fri ∧
      t.pmg = u.pmg ∧ t.cfl = u.cfl ∧ t.cst = u.cst
  ∀ (s : State) (st : SampleSet) (x : SensorSlot), s.powered = true → s.smp.set = some st →
    st.todo = [x] →
    (∀ (word : BitVec 16) (ready : Nat), st.readyAt = some ready →
      let u := s.advanceTo (ready + us 24)
      (x.channel = none → completes u st (exec (.sensorReadEnd word) s)) ∧
      ∀ c : Channel, x.channel = some c →
        let v := (s.smp.calibration.get c).correct word
        completes (u.setSmp { s.smp with
            held := s.smp.held.set c v.1
            saturatedValues := if v.2 then satInc s.smp.saturatedValues else s.smp.saturatedValues })
          { st with readings := st.readings.set c (.good v.1 v.2) } (exec (.sensorReadEnd word) s)) ∧
    (st.readyAt = none →
      let u := (s.advanceTo (st.readStart + us 100)).setSmp { s.smp with
        failedReads := s.smp.failedReads.set x.device (satInc (s.smp.failedReads.get x.device)) }
      let failed := { st with failing := st.failing.set x.device true }
      (x.channel = none → completes u failed (exec .sensorReadTimeout s)) ∧
      ∀ c : Channel, x.channel = some c →
        completes u { failed with readings := st.readings.set c .failed } (exec .sensorReadTimeout s))

/-- The Integrator: each accumulator grows, modulo 2³², by its axis rate times the interval, which is the
time since the previous sample held to 1 to 10 000 µs; an axis whose channel is absent or STALE does not
move; a history of at most 64 entries stays one. -/
def Obligations.IntegratorAddsRateTimesInterval : Prop :=
  ∀ (o : Ori) (r : SampleRecord) (p : Time), o.previousTime = some p →
    let n : Int := max 1 (min 10000 (r.time - p).toInt)
    let rate := fun a : AxisSource =>
      match r.values.get a.source.channel with
      | none => 0
      | some v => if v.stale then 0 else if a.negative then -v.value else v.value
    let q := o.integrate r false
    q.yaw = o.yaw + BitVec.ofInt 32 (rate o.axisMap.yaw * n) ∧
      q.pitch = o.pitch + BitVec.ofInt 32 (rate o.axisMap.pitch * n) ∧
      q.roll = o.roll + BitVec.ofInt 32 (rate o.axisMap.roll * n) ∧
      q.previousTime = some r.time ∧ q.axisMap = o.axisMap ∧
      (∃ e, q.history.getLast? = some e ∧ e.seq = r.seq ∧ e.time = r.time ∧ e.yaw = q.yaw ∧
        e.pitch = q.pitch ∧ e.roll = q.roll ∧ e.interval = n.toNat) ∧
      (o.history.length ≤ 64 → q.history.length ≤ 64)

/-- A pose lookup: an entry with the tag at most 60 000 µs old answers the differences to the newest entry; an
older one is STALE for the reason AGED; a tag not held is STALE for the reason MISSING. The late shift of a
lookup: the lead from the newest sample to the target time, clamped to 0 to 20 000 µs; the angles predicted by the
newest rates over that lead; each turned into pixels, rounded to the nearest with halves away from zero; and
clamped into the guard bands, so that the window lies inside the frame. A STALE lookup gives no shift. -/
def Obligations.PoseLookupAndLateShift : Prop :=
  (∀ (o : Ori) (tag : Seq) (q : Time),
     (∀ e n : PoseEntry, o.history.find? (fun e => decide (e.seq = tag)) = some e →
       o.history.getLast? = some n →
       ((q - e.time).toInt ≤ 60000 → o.lookup tag q =
         (.valid (n.yaw - e.yaw).toInt (n.pitch - e.pitch).toInt n.time n.yawRate n.pitchRate,
           { o with lookups := satInc o.lookups })) ∧
       (60000 < (q - e.time).toInt → o.lookup tag q =
         (.stale .aged, { o with lookups := satInc o.lookups, aged := satInc o.aged }))) ∧
     ((∀ e ∈ o.history, e.seq ≠ tag) → o.lookup tag q =
       (.stale .missing, { o with lookups := satInc o.lookups, missing := satInc o.missing }))) ∧
  (∀ (m : DisplayMode) (g : Geometry) (start : Time) (l : Lookup),
     let h := lateShift m g start l
     (-(m.gh : Int) ≤ h.sx ∧ h.sx ≤ m.gh) ∧ (-(m.gv : Int) ≤ h.sy ∧ h.sy ≤ m.gv) ∧
       (∀ reason, l = .stale reason → h = ⟨0, 0, true, false, false⟩) ∧
       ((∀ reason, l ≠ .stale reason) → h.stale = false)) ∧
  ∀ (m : DisplayMode) (g : Geometry) (start newest : Time) (dy dp cy cp : Int),
    let target := start + BitVec.ofNat 48 (m.rate.period / 2 + g.latency)
    let raw := (target - newest).toInt
    let lead := max 0 (min 20000 raw)
    let turned := fun q : Int => if 0 ≤ q then (q + 2048000000) / 4096000000
      else -((-q + 2048000000) / 4096000000)
    let x := turned ((dy + cy * lead) * g.ppdH)
    let y := turned ((dp + cp * lead) * g.ppdV)
    let sx := max (-(m.gh : Int)) (min m.gh x)
    let sy := max (-(m.gv : Int)) (min m.gv y)
    lateShift m g start (.valid dy dp newest cy cp) =
      ⟨sx, sy, false, decide (sx ≠ x ∨ sy ≠ y), decide (raw < 0 ∨ 20000 < raw)⟩

/-! ## Picture intake -/

/-- Set Display Mode: a record in range with no panel SHOWING is set, every slot of both eyes becomes
FREE without being torn or dropped, and the completion counters start again; with a panel SHOWING it is
answered STATE, out of range RANGE, and nothing changes. -/
def Obligations.SetDisplayModeFreesSlots : Prop :=
  ∀ (tag hz gh gv f : Byte) (s : State), Stands s 0x38 tag [hz, gh, gv, f] →
    (∀ r, RefreshRate.ofHz hz.toNat = some r → gh.toNat % 2 = 0 → gh.toNat ≤ 128 →
      gv.toNat % 2 = 0 → gv.toNat ≤ 128 → f = 0 →
      (s.sco.anyShowing = false →
        ∃ t, exec (.setDisplayMode tag [hz, gh, gv, f]) s = .next t ∧
          OnlyMessages (s.popRequest.setFri t.fri) t ∧
          t.fri.mode = some ⟨r, gh.toNat, gv.toNat⟩ ∧
          (∀ p, (t.fri.eyes.get p).completions = 0 ∧
            (t.fri.eyes.get p).counters = (s.fri.eyes.get p).counters ∧
            ∀ i : Fin 3, (t.fri.eyes.get p).slots[i].state = .free) ∧
          Answered s t 0x38 tag .done (pack8 r.hz ++ pack8 gh.toNat ++ pack8 gv.toNat ++ pack8 0 ++
            pack16 (1600 + 2 * gh.toNat) ++ pack16 (1600 + 2 * gv.toNat) ++
            pack16 ((1600 + 2 * gh.toNat) * 3))) ∧
      (s.sco.anyShowing = true →
        ∃ t, exec (.setDisplayMode tag [hz, gh, gv, f]) s = .next t ∧ OnlyMessages s.popRequest t ∧
          Answered s t 0x38 tag .state [])) ∧
    ((RefreshRate.ofHz hz.toNat = none ∨ gh.toNat % 2 = 1 ∨ 128 < gh.toNat ∨ gv.toNat % 2 = 1 ∨
        128 < gv.toNat ∨ f ≠ 0) →
      ∃ t, exec (.setDisplayMode tag [hz, gh, gv, f]) s = .next t ∧ OnlyMessages s.popRequest t ∧
        Answered s t 0x38 tag .range [])

/-- A slice at an eye with a frame FILLING: of another frame it is an orphan; of lines already stored a
duplicate; with a gap, a bad line count, lines past the height or the wrong number of bytes it tears the
frame; else its lines are stored at their places, over what stood there (the lines an earlier frame left, log
entry 17), and the last completes the frame; with no frame FILLING it is an orphan. A Frame Header tears the
frame FILLING, takes a FREE slot or else the oldest COMPLETE one, which is dropped. A message without a
display mode is unmoded, one of no valid form malformed. A refresh selection: with no COMPLETE slot a SCANNING
one repeats, with neither the refresh is blank, and the newest COMPLETE one is fresh and becomes SCANNING, the
older COMPLETE ones dropped and the old SCANNING one freed. -/
def Obligations.SliceAndSelectionOutcomes : Prop :=
  (∀ (e : Eye) (m : DisplayMode) (i : Fin 3) (sl : Slice), e.filling = some i →
     let torn := (e.slice m sl).2 = true ∧ (e.slice m sl).1.slots[i].state = .free ∧
       (e.slice m sl).1.counters = { e.counters with torn := satInc e.counters.torn } ∧
       (e.slice m sl).1.completions = e.completions ∧
       ∀ j : Fin 3, j ≠ i → (e.slice m sl).1.slots[j] = e.slots[j]
     (sl.frame ≠ e.slots[i].frame → e.slice m sl =
       ({ e with counters := { e.counters with orphan := satInc e.counters.orphan } }, false)) ∧
     (sl.frame = e.slots[i].frame → sl.first < e.slots[i].nextLine → e.slice m sl =
       ({ e with counters := { e.counters with duplicate := satInc e.counters.duplicate } }, false)) ∧
     (sl.frame = e.slots[i].frame → e.slots[i].nextLine ≤ sl.first →
       (e.slots[i].nextLine < sl.first ∨ sl.count = 0 ∨ 4 < sl.count ∨ m.height < sl.first + sl.count ∨
         sl.pixels.length ≠ sl.count * m.lineLength) → torn) ∧
     (sl.frame = e.slots[i].frame → sl.first = e.slots[i].nextLine → 1 ≤ sl.count → sl.count ≤ 4 →
       sl.first + sl.count ≤ m.height → sl.pixels.length = sl.count * m.lineLength →
       (e.slice m sl).2 = false ∧
       (e.slice m sl).1.slots[i].nextLine = sl.first + sl.count ∧
       (sl.first ≤ e.slots[i].lines.length → ∀ n,
         (n < sl.count → (e.slice m sl).1.slots[i].lines[sl.first + n]? =
           some ((sl.pixels.drop (n * m.lineLength)).take m.lineLength)) ∧
         (n < sl.first ∨ sl.first + sl.count ≤ n →
           (e.slice m sl).1.slots[i].lines[n]? = e.slots[i].lines[n]?)) ∧
       (∀ j : Fin 3, j ≠ i → (e.slice m sl).1.slots[j] = e.slots[j]) ∧
       (sl.first + sl.count < m.height → (e.slice m sl).1.slots[i].state = .filling ∧
         (e.slice m sl).1.completions = e.completions ∧ (e.slice m sl).1.counters = e.counters) ∧
       (sl.first + sl.count = m.height → (e.slice m sl).1.slots[i].state = .complete ∧
         (e.slice m sl).1.slots[i].order = e.completions ∧
         (e.slice m sl).1.completions = e.completions + 1 ∧
         (e.slice m sl).1.counters = { e.counters with completed := satInc e.counters.completed }))) ∧
  (∀ (e : Eye) (m : DisplayMode) (sl : Slice), e.filling = none → e.slice m sl =
     ({ e with counters := { e.counters with orphan := satInc e.counters.orphan } }, false)) ∧
  (∀ (e : Eye) (frame : BitVec 16) (tag : Seq) (noShift : Bool),
     let opens := fun (x : Eye) (i : Fin 3) => ({ x with slots := x.slots.set i { x.slots[i] with
       state := .filling, frame := frame, tag := tag, noShift := noShift, nextLine := 0 } } : Eye)
     let free := fun (x : Eye) (i : Fin 3) => ({ x with slots := x.slots.set i { x.slots[i] with
       state := .free, nextLine := 0 } } : Eye)
     let lowestFree := fun i : Fin 3 => e.slots[i].state = .free ∧
       ∀ j : Fin 3, j < i → e.slots[j].state ≠ .free
     (∀ i, e.filling = none → lowestFree i → e.header frame tag noShift = (opens e i, false)) ∧
     (∀ i, e.filling = none → (∀ j : Fin 3, e.slots[j].state ≠ .free) → e.slots[i].state = .complete →
       (∀ j : Fin 3, j ≠ i → e.slots[j].state = .complete →
         0 < (e.slots[j].order - e.slots[i].order).toNat ∧
         (e.slots[j].order - e.slots[i].order).toNat < 2147483648) →
       e.header frame tag noShift =
         (opens { free e i with counters := { e.counters with
           dropped := satInc e.counters.dropped } } i, false)) ∧
     (∀ i, e.filling = some i → ∃ j, (e.header frame tag noShift) =
       (opens { free e i with counters := { e.counters with torn := satInc e.counters.torn } } j, true) ∧
       (free e i).slots[j].state = .free ∧ ∀ k : Fin 3, k < j → (free e i).slots[k].state ≠ .free)) ∧
  (∀ (e : Eye) (payload : List Byte),
     e.message none payload =
       ({ e with counters := { e.counters with unmoded := satInc e.counters.unmoded } }, false) ∧
     ∀ m : DisplayMode,
       (∀ f0 f1 t0 t1 t2 t3 flags : Byte, payload = [1, f0, f1, t0, t1, t2, t3, flags] →
         e.message (some m) payload = e.header (BitVec.ofNat 16 (f0.toNat + 256 * f1.toNat))
           (BitVec.ofNat 32 (t0.toNat + 256 * (t1.toNat + 256 * (t2.toNat + 256 * t3.toNat))))
           (flags.getLsbD 0)) ∧
       (∀ (f0 f1 l0 l1 n : Byte) (pixels : List Byte), payload = 2 :: f0 :: f1 :: l0 :: l1 :: n :: pixels →
         e.message (some m) payload = e.slice m ⟨BitVec.ofNat 16 (f0.toNat + 256 * f1.toNat),
           l0.toNat + 256 * l1.toNat, n.toNat, pixels⟩) ∧
       (payload = [] ∨ (payload.headD 0 ≠ 1 ∧ payload.headD 0 ≠ 2) ∨
           (payload.headD 0 = 1 ∧ payload.length ≠ 8) ∨ (payload.headD 0 = 2 ∧ payload.length < 6) →
         e.message (some m) payload =
           ({ e with counters := { e.counters with malformed := satInc e.counters.malformed } }, false))) ∧
  (∀ (p : Panel) (payload : List Byte) (s : State),
     let r := (s.fri.eyes.get p).message s.fri.mode payload
     let x := s.setFri { s.fri with eyes := s.fri.eyes.set p r.1 }
     (r.2 = false → s.pictureMessage p payload = x) ∧
     (r.2 = true → OnlyMessages (x.withBits bitPicture) (s.pictureMessage p payload))) ∧
  (∀ e : Eye,
     (e.inState .complete = [] → e.inState .scanning = [] → e.select =
       (.nothing, { e with counters := { e.counters with blank := satInc e.counters.blank } })) ∧
     (∀ (i : Fin 3) (l : List (Fin 3)), e.inState .complete = [] → e.inState .scanning = i :: l →
       e.select = (.again e.slots[i].frame e.slots[i].tag e.slots[i].noShift,
         { e with counters := { e.counters with repeated := satInc e.counters.repeated } })) ∧
     (∀ i : Fin 3, e.slots[i].state = .complete →
       (∀ j : Fin 3, j ≠ i → e.slots[j].state = .complete →
         0 < (e.slots[i].order - e.slots[j].order).toNat ∧
         (e.slots[i].order - e.slots[j].order).toNat < 2147483648) →
       e.select.1 = .fresh e.slots[i].frame e.slots[i].tag e.slots[i].noShift ∧
       e.select.2.slots[i] = { e.slots[i] with state := .scanning } ∧
       (∀ j : Fin 3, j ≠ i →
         (e.slots[j].state = .scanning ∨ e.slots[j].state = .complete → e.select.2.slots[j].state = .free) ∧
         (e.slots[j].state = .free ∨ e.slots[j].state = .filling → e.select.2.slots[j] = e.slots[j])) ∧
       e.select.2.counters = { e.counters with
         dropped := satAdd e.counters.dropped ((e.inState .complete).length - 1) }))

/-! ## Panels -/

/-- Panels On with no emergency and no named panel ramping: every named panel that is OFF enters RAMP_UP
for 12 ms and the request stays in progress; naming none that is OFF it is answered DONE at once. With the
emergency it is STATE, and else with a named panel ramping BUSY, and changes nothing. -/
def Obligations.PanelsOnRampsUp : Prop :=
  ∀ (tag b : Byte) (names : List Panel) (s : State), Stands s 0x40 tag [b] →
    panelSetOfCode b.toNat = some names →
    (s.pmg.emergency = false → (∀ p ∈ names, (s.panel p).ramping = false) →
      ((∃ p ∈ names, (s.panel p).state = .off) →
        ∃ t, exec (.panelsOn tag [b]) s = .next t ∧
          (∀ p, t.panel p = if p ∈ names ∧ (s.panel p).state = .off
            then { s.panel p with state := .rampUp, rampEnd := s.osc + ms 12, longOp := .on }
            else s.panel p) ∧
          t = { s.popRequest with
            sco := { s.sco with panels := t.sco.panels }
            mge := { s.popRequest.mge with inProgress := s.mge.inProgress ++
              [⟨0x40, tag, .panels (names.filter fun p => decide ((s.panel p).state = .off)) b⟩] } }) ∧
      ((∀ p ∈ names, (s.panel p).state ≠ .off) →
        ∃ t, exec (.panelsOn tag [b]) s = .next t ∧ OnlyMessages s.popRequest t ∧
          Answered s t 0x40 tag .done
            ([b] ++ pack8 (s.panel .left).state.code ++ pack8 (s.panel .right).state.code))) ∧
    (s.pmg.emergency = false → (∃ p ∈ names, (s.panel p).ramping = true) →
      ∃ t, exec (.panelsOn tag [b]) s = .next t ∧ OnlyMessages s.popRequest t ∧
        Answered s t 0x40 tag .busy
          ([b] ++ pack8 (s.panel .left).state.code ++ pack8 (s.panel .right).state.code)) ∧
    (s.pmg.emergency = true →
      ∃ t, exec (.panelsOn tag [b]) s = .next t ∧ OnlyMessages s.popRequest t ∧
        Answered s t 0x40 tag .state
          ([b] ++ pack8 (s.panel .left).state.code ++ pack8 (s.panel .right).state.code))

/-- Panels Off with no named panel ramping: every named panel that is not OFF leaves for RAMP_DOWN, dark at
once, for 5 ms; with no panel left SHOWING the refresh timer stops; the request stays in progress, the
emergency or not. Naming only panels in OFF it is answered DONE at once, and with a named panel ramping BUSY,
and changes nothing. A refresh start whose one panel still to be taken so leaves SHOWING is done, that panel
having taken no part (log entry 19). -/
def Obligations.PanelsOffRampsDown : Prop :=
  ∀ (tag b : Byte) (names : List Panel) (s : State), Stands s 0x41 tag [b] →
    panelSetOfCode b.toNat = some names →
    let answers := fun st : Status => ∃ t, exec (.panelsOff tag [b]) s = .next t ∧
      OnlyMessages s.popRequest t ∧ Answered s t 0x41 tag st
        ([b] ++ pack8 (s.panel .left).state.code ++ pack8 (s.panel .right).state.code)
    ((∃ p ∈ names, (s.panel p).ramping = true) → answers .busy) ∧
    ((∀ p ∈ names, (s.panel p).state = .off) → answers .done) ∧
    ((∀ p ∈ names, (s.panel p).ramping = false) → (∃ p ∈ names, (s.panel p).state ≠ .off) →
      let after := fun p => if p ∈ names ∧ (s.panel p).state ≠ .off
        then { s.panel p with
          state := .rampDown, rampEnd := s.osc + ms 5, longOp := .off, applied := 0, window := none }
        else s.panel p
      let showing := (after .left).state = .showing ∨ (after .right).state = .showing
      let x := { s.popRequest with
        sco := { s.sco with
          panels := ⟨after .left, after .right⟩
          refreshDue := if showing then s.sco.refreshDue else none }
        mge := { s.popRequest.mge with inProgress := s.mge.inProgress ++
          [⟨0x41, tag, .panels (names.filter fun p => decide ((s.panel p).state ≠ .off)) b⟩] } }
      ((∀ r, s.sco.refreshing = some r → (after r.panel).state = .showing) →
        exec (.panelsOff tag [b]) s = .next x) ∧
      ∀ r, s.sco.refreshing = some r → (after r.panel).state ≠ .showing →
        ∃ t, exec (.panelsOff tag [b]) s = .next t ∧
          OnlyMessages (x.setSco { x.sco with refreshing := none }) t ∧
          (s.mge.enables.refresh = true → Reported t .refresh (packTime r.start ++
            if r.panel = .left then List.replicate 10 0 ++ r.entry else r.entry ++ List.replicate 10 0)))

/-- RAMP_UP_END and RAMP_DOWN_END: the panel reaches STANDBY or OFF; the one request that waited for this
ramp alone is answered DONE with the panel states, and leaves the in-progress set. -/
def Obligations.RampEndsAnswerRequest : Prop :=
  ∀ (s : State) (p : Panel) (k tag set : Byte), s.powered = true →
    s.mge.inProgress = [⟨k, tag, .panels [p] set⟩] →
    let ends := fun (st : PanelState) (t : State) =>
      let u := s.advanceTo (s.panel p).rampEnd
      let v := (u.setPanel p { s.panel p with state := st, longOp := .none })
      OnlyMessages (v.setMge { s.mge with inProgress := [] }) t ∧
        Answered s t k tag .done
          ([set] ++ pack8 (v.panel .left).state.code ++ pack8 (v.panel .right).state.code)
    ((s.panel p).state = .rampUp → ∃ t, exec (.rampUpEnd p) s = .next t ∧ ends .standby t) ∧
    ((s.panel p).state = .rampDown → ∃ t, exec (.rampDownEnd p) s = .next t ∧ ends .off t)

/-- Panels Show with a valid mode and every named panel in STANDBY shows them; if no panel was SHOWING the refresh
timer starts, with a refresh start at that moment in which they take part (what its turn takes of it is log
entry 19). Panels Standby takes SHOWING panels to STANDBY, dark at once, and stops the timer when none is left; a
refresh start whose panel still to be taken so leaves SHOWING is done and reported (log entry 19). Both
are answered STATE, changing nothing, where a named panel is in another state or, for Panels Show, there is no
mode. -/
def Obligations.PanelsShowAndStandby : Prop :=
  ∀ (tag b : Byte) (names : List Panel) (s : State), panelSetOfCode b.toNat = some names →
    let after := fun st p => if p ∈ names
      then { s.panel p with state := st, applied := 0, window := none } else s.panel p
    let states := fun f : Panel → PanelCtl =>
      [b] ++ pack8 (f .left).state.code ++ pack8 (f .right).state.code
    (Stands s 0x42 tag [b] →
      (∀ m, s.fri.mode = some m → (∀ p ∈ names, (s.panel p).state = .standby) →
        let x := s.popRequest.setSco { s.sco with
          panels := ⟨after .showing .left, after .showing .right⟩ }
        ∃ t, exec (.panelsShow tag [b]) s = .next t ∧
          Answered s t 0x42 tag .done (states (after .showing)) ∧
          (s.sco.anyShowing = true → OnlyMessages x t) ∧
          (s.sco.anyShowing = false → OnlyMessages (x.deliverRefresh s.osc) t ∧
            (∀ p, (t.panel p).state = (after .showing p).state) ∧
            t.sco.refreshDue = some (s.osc + m.rate.period * 750) ∧
            t.sco.latestRefresh = s.tas.now ∧ t.turns = s.turns.tail)) ∧
      (s.fri.mode = none ∨ (∃ p ∈ names, (s.panel p).state ≠ .standby) →
        ∃ t, exec (.panelsShow tag [b]) s = .next t ∧ OnlyMessages s.popRequest t ∧
          Answered s t 0x42 tag .state (states s.panel))) ∧
    (Stands s 0x43 tag [b] →
      ((∀ p ∈ names, (s.panel p).state = .standby ∨ (s.panel p).state = .showing) →
        let showing := (after .standby .left).state = .showing ∨ (after .standby .right).state = .showing
        let x := s.popRequest.setSco { s.sco with
          panels := ⟨after .standby .left, after .standby .right⟩
          refreshDue := if showing then s.sco.refreshDue else none }
        ∃ t, exec (.panelsStandby tag [b]) s = .next t ∧
          Answered s t 0x43 tag .done (states (after .standby)) ∧
          ((∀ r, s.sco.refreshing = some r → (after .standby r.panel).state = .showing) →
            OnlyMessages x t) ∧
          ∀ r, s.sco.refreshing = some r → (after .standby r.panel).state ≠ .showing →
            OnlyMessages (x.setSco { x.sco with refreshing := none }) t ∧
            (s.mge.enables.refresh = true → Reported t .refresh (packTime r.start ++
              if r.panel = .left then List.replicate 10 0 ++ r.entry
              else r.entry ++ List.replicate 10 0))) ∧
      ((∃ p ∈ names, (s.panel p).state ≠ .standby ∧ (s.panel p).state ≠ .showing) →
        ∃ t, exec (.panelsStandby tag [b]) s = .next t ∧ OnlyMessages s.popRequest t ∧
          Answered s t 0x43 tag .state (states s.panel)))

/-- Set Emission clamps the requested emission of the named panels to 1023; Set Panel Geometry clamps its
three values; Read Scan Status and Read Picture Status answer their blocks' state and, with clear set,
clear their counters and nothing else. -/
def Obligations.ScanSettingsAndQueries : Prop :=
  (∀ (tag : Byte) (ps : List Byte) (names : List Panel) (s : State), Stands s 0x44 tag ps →
    ps.length = 3 → panelSetOfCode (field ps 0 1) = some names →
    ∃ t, exec (.setEmission tag ps) s = .next t ∧ OnlyMessages (s.popRequest.setSco t.sco) t ∧
      (∀ p, t.panel p = if p ∈ names then { s.panel p with requested := min (field ps 1 2) 1023 }
        else s.panel p) ∧
      t.sco.refreshDue = s.sco.refreshDue ∧ t.sco.geometry = s.sco.geometry ∧
      Answered s t 0x44 tag .done
        (pack16 (t.panel .left).requested ++ pack16 (t.panel .right).requested)) ∧
  (∀ (tag : Byte) (ps : List Byte) (s : State), Stands s 0x45 tag ps → ps.length = 6 →
    let g : Geometry := ⟨max 256 (min 16384 (field ps 0 2)), max 256 (min 16384 (field ps 2 2)),
      min (field ps 4 2) 5000⟩
    ∃ t, exec (.setPanelGeometry tag ps) s = .next t ∧
      OnlyMessages (s.popRequest.setSco { s.sco with geometry := g }) t ∧
      Answered s t 0x45 tag .done (pack16 g.ppdH ++ pack16 g.ppdV ++ pack16 g.latency)) ∧
  (∀ (tag b : Byte) (s : State), Stands s 0x46 tag [b] →
    ∃ t, exec (.readScanStatus tag [b]) s = .next t ∧
      OnlyMessages (s.popRequest.setSco (if b = 0 then s.sco else { s.sco with
        panels := ⟨{ s.sco.panels.left with counters := ⟨0, 0, 0, 0⟩ },
          { s.sco.panels.right with counters := ⟨0, 0, 0, 0⟩ }⟩ })) t ∧
      Answered s t 0x46 tag .done s.scanFields) ∧
  (∀ (tag b : Byte) (s : State), Stands s 0x39 tag [b] →
    ∃ t, exec (.readPictureStatus tag [b]) s = .next t ∧
      OnlyMessages (s.popRequest.setFri (if b = 0 then s.fri else { s.fri with
        eyes := ⟨{ s.fri.eyes.left with counters := ⟨0, 0, 0, 0, 0, 0, 0, 0, 0⟩ },
          { s.fri.eyes.right with counters := ⟨0, 0, 0, 0, 0, 0, 0, 0, 0⟩ }⟩ })) t ∧
      Answered s t 0x39 tag .done
        (modeFields s.fri.mode ++ s.fri.eyes.left.fields ++ s.fri.eyes.right.fields))

/-- The work for one panel at a refresh start: a panel that is not SHOWING takes no part; one whose eye holds
no frame goes black with emission 0; one with a frame makes the pose lookup (none for a NO_SHIFT frame), takes
the late shift, places its window at gh − sx and gv − sy, applies its requested emission held to the cap in
force, and counts and sets PICTURE for a stale or clamped shift. REFRESH_START: the next start is one period
on; both panels' works are taken, left first with nothing between, or, where both are SHOWING, one panel's
alone and the other's at the next REFRESH_START, as the turn given says (log entry 19); a start with one panel
SHOWING is done at once; when the last is done the Refresh report goes out if its enable is on. A panel port
shows, of the eye's SCANNING frame, the window placed: its column and line count from the window's first;
without a window or such a frame it is black or dark. -/
def Obligations.RefreshStartAppliesEmission : Prop :=
  let zeros : List Byte := List.replicate 10 0
  (∀ (p : Panel) (start : Time) (m : DisplayMode) (a : State), a.fri.mode = some m →
    let b := (a.refreshPanel start p).1
    let entry := (a.refreshPanel start p).2
    let c := a.panel p
    let sel := (a.fri.eyes.get p).select
    let x := a.setFri { a.fri with eyes := a.fri.eyes.set p sel.2 }
    let shows := fun (code : Nat) (frame : BitVec 16) (tag : Seq) (noShift : Bool) =>
      let look := a.ori.lookup tag start
      let h : Shift := if noShift then ⟨0, 0, false, false, false⟩
        else lateShift m a.sco.geometry start look.1
      let y := if noShift then x else x.setOri look.2
      let applied := min c.requested a.emissionCap
      let z := y.setPanel p { c with
        applied := applied, sx := h.sx, sy := h.sy
        window := some ⟨((m.gh : Int) - h.sx).toNat, ((m.gv : Int) - h.sy).toNat⟩
        counters := { c.counters with
          stale := if h.stale then satInc c.counters.stale else c.counters.stale
          clamped := if h.clamped then satInc c.counters.clamped else c.counters.clamped
          leadClamped := if h.leadClamped then satInc c.counters.leadClamped
            else c.counters.leadClamped } }
      (h.stale = false → h.clamped = false → b = z) ∧
      (h.stale = true ∨ h.clamped = true → OnlyMessages (z.withBits bitPicture) b) ∧
      entry = pack8 code ++ pack16 frame.toNat ++ packS16 h.sx ++ packS16 h.sy ++
        pack8 (h.stale.toNat + 2 * h.clamped.toNat + 4 * noShift.toNat) ++ pack16 applied
    (c.state ≠ .showing → b = a ∧ entry = zeros) ∧
    (c.state = .showing →
      (sel.1 = .nothing →
        b = x.setPanel p { c with applied := 0, sx := 0, sy := 0, window := none } ∧
        entry = pack8 3 ++ List.replicate 9 0) ∧
      (∀ frame tag noShift, sel.1 = .fresh frame tag noShift → shows 1 frame tag noShift) ∧
      ∀ frame tag noShift, sel.1 = .again frame tag noShift → shows 2 frame tag noShift)) ∧
  (∀ (s : State) (m : DisplayMode), s.powered = true → s.fri.mode = some m →
    let ends := fun (x : State) (fields : List Byte) => ∃ t, exec .refreshStart s = .next t ∧
      OnlyMessages x t ∧ (x.mge.enables.refresh = false → t = x) ∧
      (x.mge.enables.refresh = true → Reported t .refresh fields)
    (∀ due, s.sco.refreshing = none → s.sco.refreshDue = some due →
      let start := (s.advanceTo due).tas.now
      let u := ((s.advanceTo due).setTurns s.turns.tail).setSco { s.sco with
        latestRefresh := start, refreshDue := some (due + m.rate.period * 750) }
      (s.turns.headD .both = .both →
        let l := u.refreshPanel start .left
        let r := l.1.refreshPanel start .right
        ends r.1 (packTime start ++ l.2 ++ r.2)) ∧
      ∀ p q : Panel, s.turns.headD .both = .only p → q ≠ p →
        let w := u.refreshPanel start p
        let v := w.1.refreshPanel start q
        ((s.panel p).state = .showing ∧ (s.panel q).state = .showing → exec .refreshStart s =
          .next (w.1.setSco { w.1.sco with refreshing := some ⟨start, q, w.2⟩ })) ∧
        ((s.panel p).state ≠ .showing ∨ (s.panel q).state ≠ .showing → ends v.1
          (packTime start ++ if p = .left then w.2 ++ v.2 else v.2 ++ w.2))) ∧
    ∀ r, s.sco.refreshing = some r →
      let w := (s.setSco { s.sco with refreshing := none }).refreshPanel r.start r.panel
      ends w.1 (packTime r.start ++ if r.panel = .left then w.2 ++ r.entry else r.entry ++ w.2)) ∧
  (∀ s : State, s.powered = true → s.sco.refreshing = none → s.sco.refreshDue = none →
    exec .refreshStart s = .next s) ∧
  ∀ (s : State) (p : Panel) (column line : Nat),
    let e := s.fri.eyes.get p
    ((s.panel p).window = none ∨ (∀ i : Fin 3, e.slots[i].state ≠ .scanning) →
      s.panelPixel p column line = none) ∧
    ∀ (w : Window) (i : Fin 3) (row : List Byte), (s.panel p).window = some w →
      (∀ j : Fin 3, e.slots[j].state = .scanning ↔ j = i) → e.slots[i].lines[w.line + line]? = some row →
      let k := 3 * (w.column + column)
      k + 3 ≤ row.length →
      s.panelPixel p column line = some [row.getD k 0, row.getD (k + 1) 0, row.getD (k + 2) 0]

/-! ## Audio -/

/-- The audio requests: Set Attenuation clamps to 255 and answers the attenuation in force; Start Capture
clamps its frames per block and starts a fresh block, is STATE in CAPTURING and RANGE for a channel count
other than 1 and 2; Stop Capture discards the partial block; Read Audio Status answers and clears. The
attenuation in force is the greatest of the requested one, the stage row's least and, while presence is
REMOVED, 255. The port sends zeros outside the current block's span, and in it the block's frame of that
moment, each sample scaled by −0.5 dB for each step of the attenuation in force: 0 leaves it, 255 mutes it,
and between them its magnitude is the exact one or one of the two whole values next to that, the 40th powers
saying so (which of the two is free, log entry 15). -/
def Obligations.AudioRequestsApplied : Prop :=
  (∀ (tag : Byte) (ps : List Byte) (s : State), Stands s 0x50 tag ps → ps.length = 2 →
    let x := s.popRequest.setAud { s.aud with requestedAtt := min (field ps 0 2) 255 }
    ∃ t, exec (.setAttenuation tag ps) s = .next t ∧ OnlyMessages x t ∧
      Answered s t 0x50 tag .done (pack8 x.aud.requestedAtt ++ pack8 x.attenuation)) ∧
  (∀ (tag : Byte) (ps : List Byte) (s : State), Stands s 0x51 tag ps → ps.length = 3 →
    let n := max 48 (min 480 (field ps 0 2))
    let c := field ps 2 1
    (c = 1 ∨ c = 2 →
      (s.aud.capturing = false → ∃ t, exec (.startCapture tag ps) s = .next t ∧
        OnlyMessages (s.popRequest.setAud { s.aud with
          capturing := true, framesPerBlock := n, channels := c, partialBlock := none }) t ∧
        Answered s t 0x51 tag .done (pack16 n ++ pack8 c ++ packFlag true)) ∧
      (s.aud.capturing = true → ∃ t, exec (.startCapture tag ps) s = .next t ∧
        OnlyMessages s.popRequest t ∧ Answered s t 0x51 tag .state [])) ∧
    (c ≠ 1 → c ≠ 2 → ∃ t, exec (.startCapture tag ps) s = .next t ∧ OnlyMessages s.popRequest t ∧
      Answered s t 0x51 tag .range [])) ∧
  (∀ (tag : Byte) (s : State), Stands s 0x52 tag [] →
    ∃ t, exec (.stopCapture tag []) s = .next t ∧
      OnlyMessages (s.popRequest.setAud { s.aud with capturing := false, partialBlock := none }) t ∧
      Answered s t 0x52 tag .done (packFlag false)) ∧
  (∀ s : State,
    let row := s.pmg.rows[s.pmg.stage]
    (s.smp.presence ≠ .removed → s.attenuation = max s.aud.requestedAtt row.minAttenuation) ∧
    (s.smp.presence = .removed → s.attenuation = max 255 (max s.aud.requestedAtt row.minAttenuation)) ∧
    (s.smp.presence = .removed → s.pmg.rowsHeld → s.aud.requestedAtt ≤ 255 → s.attenuation = 255)) ∧
  (∀ (s : State) (t : Nat),
    ((∀ c, s.aud.current = some c → t < c.first ∨ c.ends ≤ t) → s.outputFrame t = (0, 0)) ∧
    ∀ (c : CurrentBlock) (i : Nat), s.aud.current = some c → c.first + i * 15625 ≤ t →
      t < c.first + (i + 1) * 15625 → t < c.ends →
      s.outputFrame t = (outputSample s.attenuation (BitVec.ofNat 16 (field c.block.samples (4 * i) 2)),
        outputSample s.attenuation (BitVec.ofNat 16 (field c.block.samples (4 * i + 2) 2)))) ∧
  (∀ (att : Nat) (w : BitVec 16),
    let out := (outputSample att w).toInt
    let n := out.natAbs
    let m := w.toInt.natAbs
    (255 ≤ att → out = 0) ∧ (att = 0 → out = w.toInt) ∧
    (att < 255 → (0 ≤ w.toInt → 0 ≤ out) ∧ (w.toInt ≤ 0 → out ≤ 0) ∧
      m ^ 40 < (n + 1) ^ 40 * 10 ^ att ∧ (n ≠ 0 → (n - 1) ^ 40 * 10 ^ att < m ^ 40))) ∧
  (∀ (tag b : Byte) (s : State), Stands s 0x53 tag [b] →
    ∃ t, exec (.readAudioStatus tag [b]) s = .next t ∧
      OnlyMessages (s.popRequest.setAud (if b = 0 then s.aud else { s.aud with
        counters := ⟨0, 0, 0, 0, 0, 0, 0, 0⟩ })) t ∧
      Answered s t 0x53 tag .done s.audioFields)

/-- An audio block at its arrival: malformed, duplicate or past a full queue it is discarded and counted;
in PLAYING an accepted block joins the queue; in IDLE or STARVED with an empty queue it starts when it is within
250 µs early and 2000 µs late, waits when it is earlier still, and is discarded as late otherwise; in WAITING it
joins the queue, and a new head is examined in the same way. That a frame passing at this very moment is the
next one is log entry 37. -/
def Obligations.AudioBlockArrivalOutcomes : Prop :=
  ∀ (payload : List Byte) (s : State),
    let n := field payload 6 2
    let b : AudioBlock := ⟨BitVec.ofNat 48 (field payload 0 6), n, payload.drop 8⟩
    let now := s.tas.now.toNat
    let c := s.aud.counters
    let next := fun first : Nat => ∀ p, s.aud.portStart = some p → p ≤ s.osc →
      s.osc ≤ first ∧ first < s.osc + 15625 ∧ (first - p) % 15625 = 0
    let taken := (∃ x ∈ s.aud.queue, x.time = b.time) ∨ ∃ x, s.aud.current = some x ∧ x.block.time = b.time
    (payload.length < 8 ∨ n < 48 ∨ 480 < n ∨ payload.length ≠ 8 + 4 * n →
      s.audioBlock payload = s.setAud { s.aud with
        counters := { c with malformed := satInc c.malformed } }) ∧
    (48 ≤ n → n ≤ 480 → payload.length = 8 + 4 * n →
      (taken → s.audioBlock payload = s.setAud { s.aud with
        counters := { c with duplicate := satInc c.duplicate } }) ∧
      (¬ taken →
        (16 ≤ s.aud.queue.length → OnlyMessages ((s.setAud { s.aud with
          counters := { c with playoutOverflow := satInc c.playoutOverflow } }).withBits bitAudio)
          (s.audioBlock payload)) ∧
        (s.aud.queue.length < 16 → s.aud.play = .playing →
          s.audioBlock payload = s.setAud { s.aud with queue := insertBlock b s.aud.queue }) ∧
        (∀ h rest, s.aud.queue.length < 16 → s.aud.play = .waiting → s.aud.queue = h :: rest →
          (h.time.toNat < b.time.toNat →
            s.audioBlock payload = s.setAud { s.aud with queue := h :: insertBlock b rest }) ∧
          (b.time.toNat < h.time.toNat → now + 250 < b.time.toNat →
            s.audioBlock payload = s.setAud { s.aud with queue := b :: h :: rest }) ∧
          (b.time.toNat < h.time.toNat → b.time.toNat ≤ now + 250 → now ≤ b.time.toNat + 2000 →
            ∃ first, s.audioBlock payload = s.setAud { s.aud with
              queue := h :: rest, current := some ⟨b, first, first + n * 15625⟩, play := .playing
              counters := { c with started := satInc c.started } } ∧ next first) ∧
          (b.time.toNat + 2000 < now → now + 250 < h.time.toNat →
            s.audioBlock payload = s.setAud { s.aud with
              counters := { c with late := satInc c.late } })) ∧
        (s.aud.queue = [] → s.aud.play = .idle ∨ s.aud.play = .starved →
          (now + 250 < b.time.toNat →
            s.audioBlock payload = s.setAud { s.aud with queue := [b], play := .waiting }) ∧
          (b.time.toNat ≤ now + 250 → now ≤ b.time.toNat + 2000 →
            ∃ first, s.audioBlock payload = s.setAud { s.aud with
              current := some ⟨b, first, first + n * 15625⟩, play := .playing
              counters := { c with started := satInc c.started } } ∧ next first) ∧
          (b.time.toNat + 2000 < now → s.audioBlock payload = s.setAud { s.aud with
            counters := { c with late := satInc c.late } }))))

/-- PLAYOUT_HEAD_DUE: Tether Time comes to the waiting head's presentation time, and the head starts with
the next output frame (a frame passing at this very moment being the next one, log entry 37). CURRENT_BLOCK_END:
with no block queued playout is STARVED, counted once, with AUDIO set; a head inside the window starts with no
frame between; an earlier one waits; a late head is discarded and the next one judged. A waiting head that Tether
Time moves forward to or past is examined at once. -/
def Obligations.PlayoutStartsAndEnds : Prop :=
  (∀ (s : State) (b : AudioBlock) (rest : List AudioBlock), s.powered = true →
    s.aud.play = .waiting → s.aud.queue = b :: rest →
    let u := s.awaitTime b.time
    ∃ first, exec .playoutHeadDue s = .next (u.setAud { s.aud with
        queue := rest, current := some ⟨b, first, first + b.frames * 15625⟩, play := .playing
        counters := { s.aud.counters with started := satInc s.aud.counters.started } }) ∧
      (s.tas.now.toNat ≤ b.time.toNat → u.tas = { s.tas with now := b.time }) ∧
      ∀ p, s.aud.portStart = some p → p ≤ u.osc →
        u.osc ≤ first ∧ first < u.osc + 15625 ∧ (first - p) % 15625 = 0) ∧
  (∀ (s : State) (x : CurrentBlock), s.powered = true → s.aud.current = some x → s.aud.play = .playing →
    let u := s.advanceTo x.ends
    (s.aud.queue = [] → ∃ t, exec .currentBlockEnd s = .next t ∧ OnlyMessages ((u.setAud { s.aud with
      current := none, play := .starved
      counters := { s.aud.counters with underrun := satInc s.aud.counters.underrun }
      }).withBits bitAudio) t) ∧
    ∀ (b : AudioBlock) (rest : List AudioBlock), s.aud.queue = b :: rest →
      (u.tas.now.toNat + 250 < b.time.toNat → exec .currentBlockEnd s =
        .next (u.setAud { s.aud with current := none, play := .waiting })) ∧
      (b.time.toNat ≤ u.tas.now.toNat + 250 → u.tas.now.toNat ≤ b.time.toNat + 2000 →
        exec .currentBlockEnd s = .next (u.setAud { s.aud with
          queue := rest, current := some ⟨b, x.ends, x.ends + b.frames * 15625⟩
          counters := { s.aud.counters with started := satInc s.aud.counters.started } })) ∧
      (∀ (d : AudioBlock) (more : List AudioBlock), b.time.toNat + 2000 < u.tas.now.toNat →
        rest = d :: more →
        (u.tas.now.toNat + 250 < d.time.toNat → exec .currentBlockEnd s =
          .next (u.setAud { s.aud with
            current := none, queue := rest, play := .waiting
            counters := { s.aud.counters with late := satInc s.aud.counters.late } })) ∧
        (d.time.toNat ≤ u.tas.now.toNat + 250 → u.tas.now.toNat ≤ d.time.toNat + 2000 →
          exec .currentBlockEnd s = .next (u.setAud { s.aud with
            queue := more, current := some ⟨d, x.ends, x.ends + d.frames * 15625⟩
            counters := { s.aud.counters with
              late := satInc s.aud.counters.late
              started := satInc s.aud.counters.started } }))) ∧
      (b.time.toNat + 2000 < u.tas.now.toNat → rest = [] → ∃ t, exec .currentBlockEnd s = .next t ∧
        OnlyMessages ((u.setAud { s.aud with
          current := none, queue := [], play := .starved
          counters := { s.aud.counters with
            late := satInc s.aud.counters.late
            underrun := satInc s.aud.counters.underrun } }).withBits bitAudio) t)) ∧
  ∀ s : State,
    let c := s.aud.counters
    let now := s.tas.now.toNat
    (s.aud.play ≠ .waiting → s.audioStep = s) ∧
    ∀ (b : AudioBlock) (rest : List AudioBlock), s.aud.play = .waiting → s.aud.queue = b :: rest →
      (now < b.time.toNat → s.audioStep = s) ∧
      (b.time.toNat ≤ now → now ≤ b.time.toNat + 2000 →
        ∃ first, s.audioStep = s.setAud { s.aud with
          queue := rest, current := some ⟨b, first, first + b.frames * 15625⟩, play := .playing
          counters := { c with started := satInc c.started } } ∧
          ∀ p, s.aud.portStart = some p → p ≤ s.osc →
            s.osc ≤ first ∧ first < s.osc + 15625 ∧ (first - p) % 15625 = 0) ∧
      (b.time.toNat + 2000 < now → rest = [] → OnlyMessages ((s.setAud { s.aud with
        queue := [], play := .starved
        counters := { c with late := satInc c.late, underrun := satInc c.underrun }
        }).withBits bitAudio) s.audioStep)

/-- CAPTURE_INPUT_FRAME: in OFF the frame is not taken; in CAPTURING it joins the block being gathered,
which its first frame stamps with Tether Time; the frame that fills the block completes it, numbered, into
the Capture Queue, whose oldest block is dropped, counted and AUDIO set if it was full. -/
def Obligations.CaptureFramesGatherAndComplete : Prop :=
  ∀ (s : State) (f g : BitVec 16) (start : Nat), s.powered = true → s.aud.portStart = some start →
    let due := s.aud.lastInput + 15625
    let u := s.advanceTo due
    let a := { s.aud with lastInput := max due (start + (u.osc - start) / 15625 * 15625) }
    let frame := if s.aud.channels = 1 then [f] else [f, g]
    (s.aud.capturing = false → exec (.captureInputFrame f g) s = .next (u.setAud a)) ∧
    (s.aud.capturing = true → s.aud.partialBlock = none → 1 < s.aud.framesPerBlock →
      exec (.captureInputFrame f g) s =
        .next (u.setAud { a with partialBlock := some ⟨u.tas.now, 1, frame⟩ })) ∧
    ∀ b : PartialBlock, s.aud.capturing = true → s.aud.partialBlock = some b →
      (b.frames + 1 < s.aud.framesPerBlock → exec (.captureInputFrame f g) s =
        .next (u.setAud { a with
          partialBlock := some ⟨b.time, b.frames + 1, b.samples ++ frame⟩ })) ∧
      (s.aud.framesPerBlock ≤ b.frames + 1 →
        let full : CaptureBlock :=
          ⟨s.aud.blockNumber, b.time, b.frames + 1, s.aud.channels, b.samples ++ frame⟩
        let done := { a with
          partialBlock := none, blockNumber := s.aud.blockNumber + 1
          counters := { s.aud.counters with captured := satInc s.aud.counters.captured } }
        (s.aud.captureQueue.length < 8 → ∃ t, exec (.captureInputFrame f g) s = .next t ∧
          OnlyMessages (u.setAud { done with captureQueue := s.aud.captureQueue ++ [full] }) t) ∧
        (8 ≤ s.aud.captureQueue.length → ∃ t, exec (.captureInputFrame f g) s = .next t ∧
          OnlyMessages ((u.setAud { done with
            captureQueue := s.aud.captureQueue.tail ++ [full]
            counters := { done.counters with
              captureOverflow := satInc s.aud.counters.captureOverflow } }).withBits bitAudio) t))

/-! ## Tether power -/

/-- The power requests: Power Grant clamps to 8 to 80 units of 250 mW; Set Throttle Row stores a row that
leaves the table in order, answering RANGE otherwise; Set Power Policy rounds and clamps; each new cap lowers
an applied emission above it at once, the cap in force being the lower of the stage row's and 1023, the still
emission or 0 by presence; Read Power Status sets the worst stage to the stage in force. That a Set Power
Policy while no window runs begins none is log entry 23. -/
def Obligations.PowerRequestsApplied : Prop :=
  let lowered := fun x : State => x.setSco { x.sco with
    panels := ⟨{ x.sco.panels.left with applied := min x.sco.panels.left.applied x.emissionCap },
      { x.sco.panels.right with applied := min x.sco.panels.right.applied x.emissionCap }⟩ }
  (∀ s : State,
    let cap := s.pmg.rows[s.pmg.stage].emissionCap
    (s.smp.presence = .active → s.emissionCap = min cap 1023) ∧
    (s.smp.presence = .still → s.emissionCap = min cap s.pmg.stillEmission) ∧
    (s.smp.presence = .removed → s.emissionCap = 0)) ∧
  (∀ (tag g : Byte) (s : State), Stands s 0x58 tag [g] →
    let n := max 8 (min 80 g.toNat)
    ∃ t, exec (.powerGrant tag [g]) s = .next t ∧
      OnlyMessages (s.popRequest.setPmg { s.pmg with contract := n * 250 }) t ∧
      Answered s t 0x58 tag .done (pack8 n ++ pack16 (n * 250))) ∧
  (∀ (tag : Byte) (ps : List Byte) (i : Fin 4) (s : State), Stands s 0x59 tag ps → ps.length = 7 →
    field ps 0 1 = i.val →
    let row : ThrottleRow :=
      ⟨min (field ps 1 2) 1023, min (field ps 3 2) 255, SampleRate.roundDown (field ps 5 2)⟩
    let rows := s.pmg.rows.set i row
    let ordered := ∀ j k : Fin 4, j < k → rows[k].emissionCap ≤ rows[j].emissionCap ∧
      rows[j].minAttenuation ≤ rows[k].minAttenuation ∧ rows[k].maxRate.hz ≤ rows[j].maxRate.hz
    (ordered → ∃ t, exec (.setThrottleRow tag ps) s = .next t ∧
      OnlyMessages (lowered (s.popRequest.setPmg { s.pmg with rows := rows })) t ∧
      Answered s t 0x59 tag .done (pack8 i.val ++ pack16 row.emissionCap ++
        pack16 row.minAttenuation ++ pack16 row.maxRate.hz)) ∧
    (¬ ordered → ∃ t, exec (.setThrottleRow tag ps) s = .next t ∧ OnlyMessages s.popRequest t ∧
      Answered s t 0x59 tag .range [])) ∧
  (∀ (tag : Byte) (ps : List Byte) (s : State), Stands s 0x59 tag ps → ps.length = 7 →
    3 < field ps 0 1 → ∃ t, exec (.setThrottleRow tag ps) s = .next t ∧ OnlyMessages s.popRequest t ∧
      Answered s t 0x59 tag .range []) ∧
  (∀ (tag : Byte) (ps : List Byte) (s : State), Stands s 0x5A tag ps → ps.length = 5 →
    let w := field ps 0 1
    let len := if w < 32 then 16 else if w < 64 then 32 else if w < 128 then 64 else 128
    let p := { s.pmg with
      windowLength := len, hysteresis := min (field ps 1 2) 1500
      stillEmission := min (field ps 3 2) 1023
      window := if len = s.pmg.windowLength then s.pmg.window else s.pmg.window.map fun _ => ⟨0, 0⟩
      below := if len = s.pmg.windowLength then s.pmg.below else 0 }
    ∃ t, exec (.setPowerPolicy tag ps) s = .next t ∧ OnlyMessages (lowered (s.popRequest.setPmg p)) t ∧
      Answered s t 0x5A tag .done (pack8 len ++ pack16 p.hysteresis ++ pack16 p.stillEmission)) ∧
  (∀ (tag b : Byte) (s : State), Stands s 0x5B tag [b] →
    ∃ t, exec (.readPowerStatus tag [b]) s = .next t ∧
      OnlyMessages (s.popRequest.setPmg (if b = 0 then { s.pmg with worst := s.pmg.stage }
        else { s.pmg with worst := s.pmg.stage, overContract := 0, stageChanges := 0, emergencies := 0 })) t ∧
      Answered s t 0x5B tag .done s.powerFields)

/-- RAIL_SCAN_END judges, in order: the temperature and brown-out stages by their hysteresis, the scan power
and the window, the power stage at a window's end, the stage in force as the greatest of the three, and the
emergency, whose beginning at the fourth low scan forces every panel that is up into RAMP_DOWN, each counted,
and has every Panels On that ramps one of them answered STATE. A change of the stage is counted and kept in
the worst stage. Each change of the stage, and each start and end of the emergency, is reported if the enable
is on. -/
def Obligations.RailScanJudges : Prop :=
  ∀ (codes : RailCodes) (s : State), s.powered = true →
    let u := s.advanceTo s.pmg.scanDue
    let p := s.pmg
    let vin := codes.vin.toNat
    let temp := codes.temp.toNat
    let power := vin * 10 * codes.iin.toNat / 1000
    let report := fun (t : State) (cause : Nat) (emergency : Bool) => s.mge.enables.power = true →
      Reported t .power (pack8 cause ++ pack8 t.pmg.ps.val ++ pack8 t.pmg.ts.val ++ pack8 t.pmg.bs.val ++
        pack8 t.pmg.stage.val ++ packFlag emergency ++ pack16 t.emissionCap ++ pack16 p.contract ++
        pack32 t.pmg.lastAverage ++ pack16 (vin * 10) ++ packTime u.tas.now)
    let begins := p.emergency = false ∧ vin < 950 ∧ 3 ≤ p.lowScans
    let ended := fun e : InProgress => e.kind = 0x40 ∧
      (((s.panel .left).state = .rampUp ∧ e.ramps .left = true) ∨
        ((s.panel .right).state = .rampUp ∧ e.ramps .right = true))
    ∃ t, exec (.railScanEnd codes) s = .next t ∧ t.tas = u.tas ∧ t.osc = u.osc ∧
      t.pmg.rails = codes ∧ t.pmg.scanPower = power ∧ t.pmg.scanDue = p.scanDue + 1000 * 750 ∧
      (p.ts = 0 → t.pmg.ts = if temp < 1352 then 0 else if temp < 1472 then 2 else 3) ∧
      (p.ts = 2 → t.pmg.ts = if temp < 1312 then 0 else if temp < 1472 then 2 else 3) ∧
      (p.ts = 3 → t.pmg.ts = if temp < 1312 then 0 else if temp < 1432 then 2 else 3) ∧
      (p.bs = 0 → t.pmg.bs = if vin < 1050 then 3 else 0) ∧
      (p.bs = 3 → t.pmg.bs = if vin < 1080 then 3 else 0) ∧
      (p.window = none → t.pmg.window = none ∧ t.pmg.ps = p.ps) ∧
      (∀ w, p.window = some w → w.scans + 1 < p.windowLength →
        t.pmg.window = some ⟨w.sum + power, w.scans + 1⟩ ∧ t.pmg.ps = p.ps ∧
        t.pmg.lastAverage = p.lastAverage) ∧
      (∀ w, p.window = some w → p.windowLength ≤ w.scans + 1 →
        let avg := (w.sum + power) / p.windowLength
        t.pmg.window = some ⟨0, 0⟩ ∧ t.pmg.lastAverage = avg ∧
        (p.contract < avg → t.pmg.ps = (if p.ps = 3 then 3 else p.ps + 1) ∧ t.pmg.below = 0 ∧
          t.pmg.overContract = satInc p.overContract) ∧
        (avg ≤ p.contract → p.contract ≤ avg + p.hysteresis → t.pmg.ps = p.ps ∧ t.pmg.below = 0) ∧
        (avg + p.hysteresis < p.contract →
          (p.below = 0 → t.pmg.ps = p.ps ∧ t.pmg.below = 1) ∧
          (p.below = 1 → t.pmg.ps = (if p.ps = 0 then 0 else p.ps - 1) ∧ t.pmg.below = 0))) ∧
      t.pmg.stage = max (max t.pmg.ps t.pmg.ts) t.pmg.bs ∧
      (p.emergency = true → t.pmg.emergency = decide (vin < 1080)) ∧
      (p.emergency = false → 950 ≤ vin → t.pmg.emergency = false ∧ t.pmg.lowScans = 0) ∧
      (p.emergency = false → vin < 950 → p.lowScans < 3 →
        t.pmg.emergency = false ∧ t.pmg.lowScans = p.lowScans + 1) ∧
      (t.pmg.stage = p.stage → t.pmg.stageChanges = p.stageChanges ∧ t.pmg.worst = p.worst) ∧
      (t.pmg.stage ≠ p.stage → t.pmg.stageChanges = satInc p.stageChanges ∧
        t.pmg.worst = max p.worst t.pmg.stage) ∧
      (begins →
        t.pmg.emergency = true ∧ t.pmg.lowScans = 4 ∧ t.pmg.emergencies = satInc p.emergencies ∧
        t.sco.refreshDue = none ∧ t.mge.summary &&& bitPower = bitPower ∧
        ∀ q, ((s.panel q).state = .rampUp ∨ (s.panel q).state = .standby ∨ (s.panel q).state = .showing →
            (t.panel q).state = .rampDown ∧ (t.panel q).rampEnd = u.osc + ms 5 ∧
            (t.panel q).applied = 0 ∧ (t.panel q).window = none ∧
            (t.panel q).counters = { (s.panel q).counters with
              emergency := satInc (s.panel q).counters.emergency }) ∧
          ((s.panel q).state = .off ∨ (s.panel q).state = .rampDown →
            (t.panel q).state = (s.panel q).state ∧ (t.panel q).rampEnd = (s.panel q).rampEnd ∧
            (t.panel q).counters = (s.panel q).counters)) ∧
      (begins → t.mge.inProgress = (s.mge.inProgress.filter fun e => decide (¬ ended e)) ∧
        t.mge.nextSerial = s.mge.nextSerial +
          (s.mge.inProgress.filter fun e => decide (ended e)).length ∧
        ∀ e ∈ s.mge.inProgress, ended e → ∀ names set, e.resource = .panels names set →
          ∃ n, s.mge.nextSerial ≤ n ∧ (⟨n, 0x40, e.tag, .state, [set] ++ pack8 (t.panel .left).state.code ++
            pack8 (t.panel .right).state.code⟩ : Reply) ∈ t.outgoing) ∧
      (¬ begins → t.pmg.emergencies = p.emergencies ∧ t.mge.inProgress = s.mge.inProgress ∧
        t.mge.nextSerial = s.mge.nextSerial ∧ t.sco.refreshDue = s.sco.refreshDue ∧
        t.sco.refreshing = s.sco.refreshing ∧
        ∀ q, t.panel q = { s.panel q with applied := (if t.pmg.stage = p.stage then
          (s.panel q).applied else min (s.panel q).applied t.emissionCap) }) ∧
      (t.pmg.stage ≠ p.stage → report t 1 p.emergency ∧ t.mge.summary &&& bitPower = bitPower) ∧
      (p.emergency = false → t.pmg.emergency = true → report t 2 true) ∧
      (p.emergency = true → t.pmg.emergency = false → report t 3 false) ∧
      t.pmg.contract = p.contract ∧ t.pmg.rows = p.rows ∧ t.smp = s.smp ∧ t.ori = s.ori ∧
      t.fri = s.fri ∧ t.cfl = s.cfl ∧ t.cst = s.cst

/-! ## Tether Link -/

/-- DOWNSTREAM_FRAME_RECEPTION: outside UP nothing is received; in UP a bad length or a cut frame is malformed
and a wrong CRC a CRC failure, each counted and dropped; a good frame that no entry matches is unmatched and
dropped; one that the lowest matching entry sends to CONTROL is judged by the Message Engine, or, while a
loopback runs, sent back as an echo on a free lane, queued as one, or dropped past four; the other
destinations take theirs. That four echoes wait besides the one being sent, and that one begins on a free lane
in its own arrival, is log entry 30. -/
def Obligations.FrameReceptionOutcomes : Prop :=
  ∀ (bytes : List Byte) (s : State), s.powered = true →
    let c := s.lnk.counters
    let len := field bytes 0 4 / 4096
    let channel := BitVec.ofNat 12 (field bytes 0 4)
    let crc := (crc32 (bytes.take (len + 4))).toNat
    let payload := (bytes.drop 4).take len
    let hits := fun e : FilterEntry => e.enabled = true ∧ channel &&& e.mask = e.value &&& e.mask
    (s.lnk.state ≠ .up → exec (.downstreamFrameReception bytes) s = .next s) ∧
    (s.lnk.state = .up →
      (bytes.length < 4 ∨ len = 0 ∨ 24576 < len ∨ bytes.length < len + 8 →
        exec (.downstreamFrameReception bytes) s = .next (s.setLnk { s.lnk with
          counters := { c with malformed := satInc c.malformed } })) ∧
      (1 ≤ len → len ≤ 24576 → bytes.length = len + 8 →
        (crc ≠ field bytes (len + 4) 4 →
          exec (.downstreamFrameReception bytes) s = .next (s.setLnk { s.lnk with
            crcTally := s.lnk.crcTally + 1
            counters := { c with crcFailures := satInc c.crcFailures } })) ∧
        (crc = field bytes (len + 4) 4 →
          let g := s.setLnk { s.lnk with counters := { c with good := satInc c.good } }
          ((∀ i : Fin 8, ¬ hits s.cfl.entries[i]) →
            exec (.downstreamFrameReception bytes) s =
              .next (g.setCfl { s.cfl with unmatched := satInc s.cfl.unmatched })) ∧
          ∀ i : Fin 8, hits s.cfl.entries[i] → (∀ j : Fin 8, j < i → ¬ hits s.cfl.entries[j]) →
            let e := s.cfl.entries[i]
            let h := g.setCfl { s.cfl with entries := s.cfl.entries.set i { e with hits := satInc e.hits } }
            (e.dest = .discard → exec (.downstreamFrameReception bytes) s = .next h) ∧
            (e.dest = .time → exec (.downstreamFrameReception bytes) s = .next (h.timeMark payload)) ∧
            (e.dest = .pictureL →
              exec (.downstreamFrameReception bytes) s = .next (h.pictureMessage .left payload)) ∧
            (e.dest = .pictureR →
              exec (.downstreamFrameReception bytes) s = .next (h.pictureMessage .right payload)) ∧
            (e.dest = .control → s.lnk.suspended = true →
              (4 ≤ s.lnk.echoQueue.length → exec (.downstreamFrameReception bytes) s =
                .next (h.setLnk { h.lnk with
                  counters := { h.lnk.counters with echoDrops := satInc c.echoDrops } })) ∧
              (s.lnk.echoQueue.length < 4 → s.lnk.u0 ≠ .idle →
                exec (.downstreamFrameReception bytes) s =
                  .next (h.setLnk { h.lnk with echoQueue := s.lnk.echoQueue ++ [bytes] })) ∧
              (s.lnk.echoQueue = [] → s.lnk.u0 = .idle →
                exec (.downstreamFrameReception bytes) s =
                  .next (h.setLnk { h.lnk with
                    u0 := .echo bytes true (s.osc + bytes.length * 24) }))) ∧
            (e.dest = .audio → exec (.downstreamFrameReception bytes) s = .next (h.audioBlock payload)) ∧
            (e.dest = .control → s.lnk.suspended = false →
              (payload.length < 6 ∨ field payload 4 2 ≠ payload.length - 6 →
                exec (.downstreamFrameReception bytes) s = .next (h.setMge { s.mge with
                  malformed := satInc s.mge.malformed })) ∧
              (6 ≤ payload.length → field payload 4 2 = payload.length - 6 →
                (payload.headD 0 ≠ 1 → exec (.downstreamFrameReception bytes) s =
                  .next (h.setMge { s.mge with protocolErrors := satInc s.mge.protocolErrors })) ∧
                (payload.headD 0 = 1 →
                  (s.mge.admitted < 8 → exec (.downstreamFrameReception bytes) s =
                    .next (h.setMge { s.mge with
                      requests := s.mge.requests ++
                        [⟨payload.getD 1 0, payload.getD 2 0, payload.drop 6⟩]
                      admitted := s.mge.admitted + 1 })) ∧
                  (8 ≤ s.mge.admitted → ∃ t, exec (.downstreamFrameReception bytes) s = .next t ∧
                    OnlyMessages ((h.setMge { s.mge with
                      overruns := satInc s.mge.overruns }).withBits bitMsg) t)))))))

/-- D0_SIGNAL_DETECT, D0_SIGNAL_LOSS and BACKOFF_END: the link leaves DOWN for TRAIN when there is signal on
D0, no backoff runs and the first load has ended, offering HALF and FULL, four lanes, quiet idle, and its own
power request and user byte in the ability word it begins; otherwise only the signal or the backoff changes. -/
def Obligations.TrainingBeginsOnSignal : Prop :=
  let enters := fun (x t : State) => OnlyMessages (x.setLnk { x.lnk with
      state := .train, limit := some (x.osc + ms 100), heldWord := none
      sentRequest := x.lnk.ownRequest, sentUser := x.lnk.ownUser
      u0 := .abilityWord ⟨true, true, 4, true, x.lnk.ownRequest, x.lnk.ownUser⟩ (x.osc + 192) }) t
  ∀ s : State, s.powered = true →
    let x := s.setLnk { s.lnk with d0Signal := true }
    let y := fun ends => (s.advanceTo ends).setLnk { s.lnk with backoff := none }
    exec .d0SignalLoss s = .next (s.setLnk { s.lnk with d0Signal := false }) ∧
    (s.lnk.state = .down ∧ s.lnk.backoff = none ∧ s.lnk.loaded = true →
      ∃ t, exec .d0SignalDetect s = .next t ∧ enters x t) ∧
    (s.lnk.state ≠ .down ∨ s.lnk.backoff ≠ none ∨ s.lnk.loaded = false →
      exec .d0SignalDetect s = .next x) ∧
    ∀ ends, s.lnk.backoff = some ends →
      (s.lnk.state = .down ∧ s.lnk.d0Signal = true ∧ s.lnk.loaded = true →
        ∃ t, exec .backoffEnd s = .next t ∧ enters (y ends) t) ∧
      (s.lnk.state ≠ .down ∨ s.lnk.d0Signal = false ∨ s.lnk.loaded = false →
        exec .backoffEnd s = .next (y ends))

/-- TRAIN completes when D0 is locked and a usable host word is held, whichever comes last: rate, lanes,
partner word and grant are taken, the contract follows the grant, LINK is set and a Link report of them goes
out; an unusable word is a protocol error and nothing else. That the partner's lane figure is held as 4 when
it is above 4 is log entry 36; that the ability word on U0 goes on in UP is log entry 16. -/
def Obligations.TrainingCompletes : Prop :=
  let completes := fun (s t : State) (locked : Vector Bool 4) (w : HostWord) =>
    let grant := max 8 (min 80 w.grant.toNat)
    let n := min (locked.toList.countP id) w.lanes.toNat
    OnlyMessages (((s.setLnk { t.lnk with u0 := s.lnk.u0 }).setPmg { s.pmg with contract := grant * 250 }).withBits bitLink) t ∧
    t.lnk = { s.lnk with
      state := .up, locked := locked, rate := t.lnk.rate, active := t.lnk.active
      grades := t.lnk.grades, worst := t.lnk.worst, lowWindows := 0, crcTally := 0, limit := none
      heldWord := none, grantReceived := some w.grant.toNat, grantApplied := some grant
      partner := some { w with lanes := if 4 < w.lanes.toNat then 4 else w.lanes }
      latestUp := s.tas.now, windowEnd := some (s.osc + s.lnk.quality.windowLength * 750)
      u0 := t.lnk.u0 } ∧
    (((s.lnk.preferred = .full ∧ w.full = true) ∨ (s.lnk.preferred = .half ∧ w.half = false)) →
      t.lnk.rate = some .full) ∧
    (((s.lnk.preferred = .half ∧ w.half = true) ∨ (s.lnk.preferred = .full ∧ w.full = false)) →
      t.lnk.rate = some .half) ∧
    t.lnk.active.toList.countP id = (if 4 ≤ n then 4 else if 2 ≤ n then 2 else 1) ∧
    t.lnk.active[0] = true ∧ (∀ i : Lane, t.lnk.active[i] = true → locked[i] = true) ∧
    (∀ i j : Lane, t.lnk.active[i] = true → j < i → locked[j] = true → t.lnk.active[j] = true) ∧
    (∀ i : Lane, t.lnk.grades[i] = if t.lnk.active[i] then 7 else 0) ∧
    (∀ i : Lane, t.lnk.worst[i] = if t.lnk.active[i] then 7 else s.lnk.worst[i]) ∧
    (s.mge.enables.link = true → Reported t .link (pack8 1 ++ pack8 (rateCode t.lnk.rate) ++
      pack8 (countLanes t.lnk.active) ++ pack8 (laneSetCode t.lnk.active) ++ pack8 grant ++
      pack8 w.user.toNat ++ packTime s.tas.now))
  ∀ (s : State) (w : HostWord), s.powered = true → s.lnk.state = .train →
    ((w.half = true ∨ w.full = true) → w.lanes ≠ 0 → s.lnk.locked[0] = true →
      ∃ t, exec (.hostAbilityWord w) s = .next t ∧ completes s t s.lnk.locked w) ∧
    (∀ lane : Lane, (w.half = true ∨ w.full = true) → w.lanes ≠ 0 → w.lanes.toNat ≤ 4 →
      s.lnk.heldWord = some w → lane = 0 ∨ s.lnk.locked[0] = true →
      ∃ t, exec (.laneWordLock lane) s = .next t ∧ completes s t (s.lnk.locked.set lane true) w) ∧
    (s.lnk.locked[0] = true → (w.half = false ∧ w.full = false) ∨ w.lanes = 0 →
      exec (.hostAbilityWord w) s = .next (s.setLnk { s.lnk with
        counters := { s.lnk.counters with protocolErrors := satInc s.lnk.counters.protocolErrors } }))

/-- TRAINING_LIMIT_EXPIRY and RECOVERY_LIMIT_EXPIRY take the link to DOWN: no rate, no lanes or locks, U0 off,
the 10 ms backoff, any loopback ended; the transmit slots and the pending motion report are flushed, each item
counted dropped by its class, the Message Engine and the Capture Queue emptied; a FILLING frame is torn,
counted, and sets PICTURE, and the other frame slots stay; from RECOVER LINK and the link-down latch are set;
bits newly set raise one Attention report. That an echo which arrived at this very moment is an echo drop too
is log entry 30. -/
def Obligations.LimitsTakeLinkDown : Prop :=
  ∀ (s : State) (ends : Nat), s.powered = true → s.lnk.limit = some ends →
    let u := s.advanceTo ends
    let bits : BitVec 8 := (if s.lnk.state = .recover then bitLink else 0) |||
      if s.fri.eyes.left.filling = none ∧ s.fri.eyes.right.filling = none then 0 else bitPicture
    let attention := bits &&& ~~~s.mge.summary &&& s.mge.mask ≠ 0
    let down := fun t : State =>
      t.tas = u.tas ∧ t.lnk.state = .down ∧ t.lnk.rate = none ∧ t.lnk.u0 = .idle ∧
      (∀ i : Lane, t.lnk.active[i] = false ∧ t.lnk.locked[i] = false ∧ t.lnk.grades[i] = 0) ∧
      t.lnk.backoff = some (u.osc + ms 10) ∧ t.lnk.limit = none ∧ t.lnk.loopback = .none ∧
      t.lnk.echoQueue = [] ∧ t.lnk.worst = s.lnk.worst ∧ t.lnk.partner = s.lnk.partner ∧
      t.lnk.counters.echoDrops = satAdd s.lnk.counters.echoDrops
        (s.lnk.echoQueue.length + (s.lnk.u0.justArrived u.osc).toNat) ∧
      (∀ i : Fin 4, t.rch.slots[i] = .empty) ∧ t.rch.pendingMotion = none ∧
      t.rch.priority = s.rch.priority ∧ t.rch.sent = s.rch.sent ∧ t.rch.superseded = s.rch.superseded ∧
      (∀ c, t.rch.dropped.get c = satAdd (s.rch.dropped.get c)
        (s.rch.holding c + if c = .motion ∧ s.rch.pendingMotion ≠ none then 1 else 0)) ∧
      t.mge.requests = [] ∧ t.mge.inProgress = [] ∧ t.mge.replies = [] ∧ t.mge.admitted = 0 ∧
      t.mge.summary = s.mge.summary ||| bits ∧ t.mge.outstanding = decide attention ∧
      t.mge.reports = (if attention
        then [⟨.attention, pack8 (s.mge.summary ||| bits).toNat ++ packTime u.tas.now⟩] else []) ∧
      t.aud = { s.aud with captureQueue := [] } ∧
      (∀ q,
        let e := s.fri.eyes.get q
        (e.filling = none → t.fri.eyes.get q = e) ∧
        ∀ i : Fin 3, e.filling = some i → t.fri.eyes.get q = { e with
          slots := e.slots.set i { e.slots[i] with state := .free, nextLine := 0 }
          counters := { e.counters with torn := satInc e.counters.torn } }) ∧
      t.fri.mode = s.fri.mode ∧ t.smp = s.smp ∧ t.ori = s.ori ∧ t.sco = s.sco ∧ t.pmg = s.pmg ∧
      t.cfl = s.cfl ∧ t.cst = s.cst
    (s.lnk.state = .train → ∃ t, exec .trainingLimitExpiry s = .next t ∧ down t ∧
      t.lnk.downLatch = s.lnk.downLatch ∧
      t.lnk.counters.trainingFailures = satInc s.lnk.counters.trainingFailures) ∧
    (s.lnk.state = .recover → ∃ t, exec .recoveryLimitExpiry s = .next t ∧ down t ∧
      t.lnk.downLatch = true ∧
      t.lnk.counters.trainingFailures = s.lnk.counters.trainingFailures)

/-- LANE_WORD_LOCK, HOST_ABILITY_WORD, LANE_LOCK_LOSS, QUIET_MARKER and WAKE_MARKER: a lane comes to lock,
which in DOWN none does, and which by itself changes nothing else (where it completes TRAIN or RECOVER,
TrainingCompletes and LinkRetrainRecovers say so); a host word that comes while D0 is not locked, or in UP,
QUIET or DOWN, is not read; an active lane that loses lock in UP or QUIET takes the link to RECOVER at the
current rate, any other only loses its lock; a quiet marker takes a link whose partner has the capability from
UP to QUIET, and a wake marker back; a misplaced marker is a protocol error. A loopback armed or running ends,
as LoopbackArmsRunsEnds says. The model's own: the other lanes keep their locks at entry to RECOVER (log entry
13); a rate that reads NONE recovers at FULL (log entry 40); whether a frame is being received is the
command's operand (log entry 9). -/
def Obligations.LockLossAndMarkers : Prop :=
  ∀ (s : State), s.powered = true →
    let c := s.lnk.counters
    let ended := s.lnk.endLoopback s.osc
    let misplaced := s.setLnk { s.lnk with counters := { c with protocolErrors := satInc c.protocolErrors } }
    (∀ (lane : Lane) (cut : Bool),
      let unlocked := s.lnk.locked.set lane false
      (s.lnk.state = .up ∨ s.lnk.state = .quiet → s.lnk.active[lane] = true →
        s.lnk.locked[lane] = true →
        ∃ t, exec (.laneLockLoss lane cut) s = .next t ∧ OnlyMessages (s.setLnk { ended with
          locked := unlocked, state := .recover, target := s.lnk.rate.getD .full
          wordArrived := false, limit := some (s.osc + ms 10), windowEnd := none, crcTally := 0
          counters := { ended.counters with
            recoveries := satInc c.recoveries
            malformed := if cut = true ∧ s.lnk.state = .up then satInc c.malformed else c.malformed } }) t) ∧
      (s.lnk.active[lane] = false ∨ s.lnk.locked[lane] = false ∨ (s.lnk.state ≠ .up ∧ s.lnk.state ≠ .quiet) →
        exec (.laneLockLoss lane cut) s = .next (s.setLnk { s.lnk with locked := unlocked }))) ∧
    (∀ lane : Lane,
      let locked := s.lnk.locked.set lane true
      (s.lnk.state = .down → exec (.laneWordLock lane) s = .next s) ∧
      (s.lnk.state ≠ .down →
        (lane ≠ 0 ∧ s.lnk.locked[0] = false) ∨ (s.lnk.state = .train ∧ s.lnk.heldWord = none) ∨
          (s.lnk.state = .recover ∧ s.lnk.wordArrived = false) ∨ s.lnk.state = .up ∨ s.lnk.state = .quiet →
        exec (.laneWordLock lane) s = .next (s.setLnk { s.lnk with locked := locked }))) ∧
    (∀ w : HostWord,
      s.lnk.locked[0] = false ∨ s.lnk.state = .up ∨ s.lnk.state = .quiet ∨ s.lnk.state = .down →
        exec (.hostAbilityWord w) s = .next s) ∧
    (∀ (cut : Bool) (w : HostWord), s.lnk.state = .up → s.lnk.partner = some w →
      (w.quiet = true →
        ∃ t, exec (.quietMarker cut) s = .next t ∧ OnlyMessages (s.setLnk { ended with
          state := .quiet, quietLatch := true, windowEnd := none, crcTally := 0
          counters := { ended.counters with
            malformed := if cut = true then satInc c.malformed else c.malformed } }) t) ∧
      (w.quiet = false → exec (.quietMarker cut) s = .next misplaced)) ∧
    (∀ cut, s.lnk.state ≠ .up → exec (.quietMarker cut) s = .next s) ∧
    (s.lnk.state = .quiet → exec .wakeMarker s = .next (s.setLnk { s.lnk with
      state := .up, lowWindows := 0, crcTally := 0
      windowEnd := some (s.osc + s.lnk.quality.windowLength * 750) })) ∧
    (s.lnk.state = .up → exec .wakeMarker s = .next misplaced)

/-- QUALITY_WINDOW_END: each active lane's grade falls at once to the number of thresholds its energy is
below, and rises only as far as the energy clears them by H; the link grade, the low-window count and the
high-error latch follow, and the fourth low window at FULL takes the link to RECOVER for HALF, ending a
loopback. That the lanes keep their locks also then is log entry 13. -/
def Obligations.WindowEndGradesLanes : Prop :=
  ∀ (s : State) (e : Energies) (cut : Bool) (ends : Nat), s.powered = true → s.lnk.state = .up →
    s.lnk.windowEnd = some ends →
    let q := s.lnk.quality
    let energy := fun i : Lane => ([e.d0, e.d1, e.d2, e.d3][i.val]!).toNat
    let below := fun (i : Lane) (h : Nat) =>
      (q.thresholds.toList.filter fun x => decide (energy i + h < x)).length
    ∃ t, exec (.qualityWindowEnd e cut) s = .next t ∧ t.tas = (s.advanceTo ends).tas ∧
      (∀ i : Lane, s.lnk.active[i] = true →
        (below i 0 ≤ s.lnk.grades[i] → t.lnk.grades[i] = below i 0) ∧
        (s.lnk.grades[i] < below i 0 → t.lnk.grades[i] = max s.lnk.grades[i] (below i q.hysteresis)) ∧
        t.lnk.worst[i] = min s.lnk.worst[i] t.lnk.grades[i]) ∧
      (∀ i : Lane, s.lnk.active[i] = false →
        t.lnk.grades[i] = s.lnk.grades[i] ∧ t.lnk.worst[i] = s.lnk.worst[i]) ∧
      (q.fallback < 7 →
        ((∃ i : Lane, s.lnk.active[i] = true ∧ t.lnk.grades[i] ≤ q.fallback) →
          t.lnk.lowWindows = min 4 (s.lnk.lowWindows + 1)) ∧
        ((∀ i : Lane, s.lnk.active[i] = true → q.fallback < t.lnk.grades[i]) → t.lnk.lowWindows = 0)) ∧
      (4 ≤ s.lnk.crcTally → t.lnk.highErrorLatch = true ∧ t.mge.summary &&& bitLink = bitLink) ∧
      (s.lnk.crcTally < 4 → t.lnk.highErrorLatch = s.lnk.highErrorLatch ∧
        t.mge.summary = s.mge.summary) ∧
      t.lnk.crcTally = 0 ∧
      ((s.lnk.rate = some .full ∧ t.lnk.lowWindows = 4) →
        t.lnk.state = .recover ∧ t.lnk.target = .half ∧ t.lnk.windowEnd = none ∧
        t.lnk.loopback = .none ∧ t.lnk.echoQueue = [] ∧
        t.lnk.counters.recoveries = satInc s.lnk.counters.recoveries) ∧
      ((s.lnk.rate ≠ some .full ∨ t.lnk.lowWindows ≠ 4) →
        t.lnk.state = .up ∧ t.lnk.windowEnd = some (ends + q.windowLength * 750) ∧
        t.lnk.counters = s.lnk.counters ∧ t.lnk.loopback = s.lnk.loopback ∧
        t.lnk.echoQueue = s.lnk.echoQueue) ∧
      t.lnk.active = s.lnk.active ∧ t.lnk.locked = s.lnk.locked ∧ t.pmg = s.pmg ∧ t.cst = s.cst ∧
      t.cfl = s.cfl ∧ t.fri = s.fri ∧ t.smp = s.smp

/-- Link Retrain enters RECOVER at the named rate, from QUIET or from UP with no loopback, keeping the request
in progress; in every other case it is BUSY, in DOWN and TRAIN too (log entry 18), and a code that names no
rate is RANGE. A recovery, of whatever cause, completes when D0 is locked and a host word has come, whichever
comes last: rate (the other one where the partner's word does not list the target), lanes and grades are
taken, LINK is set, a Link report goes out, and the Link Retrain in progress, if there is one, is answered.
The lanes keep their locks at entry to RECOVER (log entry 13), and whether a frame is being received is the
command's operand (log entry 9). -/
def Obligations.LinkRetrainRecovers : Prop :=
  (∀ (tag b : Byte) (cut : Bool) (r : LaneRate) (s : State), Stands s 0x63 tag [b] →
    (b = 1 ∧ r = .half ∨ b = 2 ∧ r = .full) →
    let may := s.lnk.state = .quiet ∨ (s.lnk.state = .up ∧ s.lnk.loopback = .none)
    let ended := s.lnk.endLoopback s.osc
    (may → ∃ t, exec (.linkRetrain tag [b] cut) s = .next t ∧
      OnlyMessages ((s.popRequest.setLnk { ended with
          state := .recover, preferred := r, target := r, wordArrived := false
          limit := some (s.osc + ms 10), windowEnd := none, crcTally := 0
          counters := { ended.counters with
            recoveries := satInc s.lnk.counters.recoveries
            malformed := if cut = true ∧ s.lnk.state = .up then satInc s.lnk.counters.malformed
              else s.lnk.counters.malformed } }).setMge { s.popRequest.mge with
          inProgress := s.mge.inProgress ++ [⟨0x63, tag, .link⟩] }) t) ∧
    (¬ may → ∃ t, exec (.linkRetrain tag [b] cut) s = .next t ∧ OnlyMessages s.popRequest t ∧
      Answered s t 0x63 tag .busy [])) ∧
  (∀ (tag b : Byte) (cut : Bool) (s : State), Stands s 0x63 tag [b] → b ≠ 1 → b ≠ 2 →
    ∃ t, exec (.linkRetrain tag [b] cut) s = .next t ∧ OnlyMessages s.popRequest t ∧
      Answered s t 0x63 tag .range []) ∧
  let recovers := fun (s t : State) (locked : Vector Bool 4) (v : HostWord) =>
    let n := min (locked.toList.countP id) v.lanes.toNat
    let fields := pack8 (rateCode t.lnk.rate) ++ pack8 (countLanes t.lnk.active) ++
      pack8 (laneSetCode t.lnk.active)
    OnlyMessages (((s.setLnk { t.lnk with u0 := s.lnk.u0 }).setMge { s.mge with
      inProgress := s.mge.inProgress.filter fun e => decide (e.resource ≠ .link) }).withBits bitLink) t ∧
    t.lnk = { s.lnk with
      state := .up, locked := locked, rate := t.lnk.rate, active := t.lnk.active, grades := t.lnk.grades
      wordArrived := false, lowWindows := 0, crcTally := 0, limit := none, latestUp := s.tas.now
      windowEnd := some (s.osc + s.lnk.quality.windowLength * 750), u0 := t.lnk.u0 } ∧
    (s.lnk.target = .full ∧ v.full = true ∨ s.lnk.target = .half ∧ v.half = false →
      t.lnk.rate = some .full) ∧
    (s.lnk.target = .half ∧ v.half = true ∨ s.lnk.target = .full ∧ v.full = false →
      t.lnk.rate = some .half) ∧
    t.lnk.active.toList.countP id = (if 4 ≤ n then 4 else if 2 ≤ n then 2 else 1) ∧
    t.lnk.active[0] = true ∧ (∀ i : Lane, t.lnk.active[i] = true → locked[i] = true) ∧
    (∀ i j : Lane, t.lnk.active[i] = true → j < i → locked[j] = true → t.lnk.active[j] = true) ∧
    (∀ i : Lane, t.lnk.grades[i] = if t.lnk.active[i] then 7 else 0) ∧
    (s.mge.enables.link = true → Reported t .link (pack8 2 ++ fields ++
      pack8 (s.lnk.grantApplied.getD 0) ++ pack8 v.user.toNat ++ packTime s.tas.now)) ∧
    (∀ tag, s.mge.inProgress = [⟨0x63, tag, .link⟩] → Answered s t 0x63 tag .done fields) ∧
    ((∀ e ∈ s.mge.inProgress, e.resource ≠ .link) → t.mge.nextSerial = s.mge.nextSerial)
  ∀ (s : State) (v : HostWord), s.powered = true → s.lnk.state = .recover →
    s.lnk.partner = some v → (v.half = true ∨ v.full = true) → v.lanes ≠ 0 →
    (∀ w : HostWord, s.lnk.locked[0] = true →
      ∃ t, exec (.hostAbilityWord w) s = .next t ∧ recovers s t s.lnk.locked v) ∧
    ∀ lane : Lane, s.lnk.wordArrived = true → lane = 0 ∨ s.lnk.locked[0] = true →
      ∃ t, exec (.laneWordLock lane) s = .next t ∧ recovers s t (s.lnk.locked.set lane true) v

/-- Link Loopback in UP is armed with its duration and started by its own reply's transmission; in QUIET it is
STATE, and BUSY while one is armed or running and in every other link state (in DOWN and TRAIN by log entry
18). Its expiry ends it: the frames left in the echo queue are counted as drops, and so is an echo whose frame
arrived at this very moment, while one already being sent goes on; where U0 is then free the arbitration is
made (what it is, FreeLaneGrantsBestSlot says). Each echo sent is counted, and the next waiting one follows
it, or, once the loopback has ended, the arbitration, and in TRAIN, where that grants nothing, the ability
word. That an echo leaves the queue when its sending starts, and what is drawn from a frame that arrives
together with the end, is log entry 30; the serial that tells the reply is log entry 31. -/
def Obligations.LoopbackArmsRunsEnds : Prop :=
  (∀ (tag d : Byte) (s : State), Stands s 0x64 tag [d] →
    (s.lnk.state = .up → s.lnk.loopback = .none →
      ∃ t, exec (.linkLoopback tag [d]) s = .next t ∧ OnlyMessages (s.popRequest.setLnk { s.lnk with
          loopback := .armed (max 1 (min 60 d.toNat)) s.mge.nextSerial }) t ∧
        Answered s t 0x64 tag .done (pack8 (max 1 (min 60 d.toNat)))) ∧
    ((s.lnk.state = .up ∧ s.lnk.loopback ≠ .none) ∨ (s.lnk.state ≠ .up ∧ s.lnk.state ≠ .quiet) →
      ∃ t, exec (.linkLoopback tag [d]) s = .next t ∧ OnlyMessages s.popRequest t ∧
        Answered s t 0x64 tag .busy []) ∧
    (s.lnk.state = .quiet →
      ∃ t, exec (.linkLoopback tag [d]) s = .next t ∧ OnlyMessages s.popRequest t ∧
        Answered s t 0x64 tag .state [])) ∧
  (∀ (l : Lnk) (osc : Nat),
    let ended := fun (late : Bool) => { l with
      loopback := .none, echoQueue := [], u0 := if late then .idle else l.u0
      counters := { l.counters with
        echoDrops := satAdd l.counters.echoDrops (l.echoQueue.length + late.toNat) } }
    (∀ f ends, l.u0 = .echo f true ends → osc + f.length * 24 ≤ ends → l.endLoopback osc = ended true) ∧
    ((∀ f ends, l.u0 = .echo f true ends → ends < osc + f.length * 24) →
      l.endLoopback osc = ended false)) ∧
  (∀ (s : State) (ends : Nat), s.powered = true → s.lnk.loopback = .running ends →
    let u := s.advanceTo ends
    exec .loopbackTimerExpiry s = .next (u.setLnk (s.lnk.endLoopback u.osc)).arbitrate) ∧
  ∀ (s : State) (f : List Byte) (arrived : Bool) (sent : Nat), s.powered = true →
    s.lnk.u0 = .echo f arrived sent →
    let u := s.advanceTo sent
    let counted := { s.lnk.counters with
      sent := satInc s.lnk.counters.sent, echoed := satInc s.lnk.counters.echoed }
    (s.lnk.suspended = true → s.lnk.echoQueue = [] → exec .echoTransmissionComplete s =
      .next (u.setLnk { s.lnk with counters := counted, u0 := .idle })) ∧
    (∀ (g : List Byte) (rest : List (List Byte)), s.lnk.suspended = true →
      s.lnk.echoQueue = g :: rest → exec .echoTransmissionComplete s = .next (u.setLnk { s.lnk with
        counters := counted, echoQueue := rest, u0 := .echo g false (u.osc + g.length * 24) })) ∧
    (s.lnk.suspended = false →
      let t := (u.setLnk { s.lnk with counters := counted, u0 := .idle }).arbitrate
      (s.lnk.state ≠ .train ∨ t.lnk.u0 ≠ .idle → exec .echoTransmissionComplete s = .next t) ∧
      (s.lnk.state = .train → t.lnk.u0 = .idle → exec .echoTransmissionComplete s = .next (t.setLnk { t.lnk with
        u0 := .abilityWord ⟨true, true, 4, true, s.lnk.sentRequest, s.lnk.sentUser⟩ (u.osc + 192) })))

/-- Read Link Status answers the link's state, then clears the three latches and sets the worst grades back;
Read Link Counters answers and clears; Set Link Quality takes thresholds that strictly decrease and restarts
the window when its length changes, and answers RANGE otherwise. Where there is no partner word its six bytes
are free values (log entry 11). -/
def Obligations.LinkRequestsApplied : Prop :=
  (∀ (tag : Byte) (s : State), Stands s 0x60 tag [] →
    let l := { s.lnk with
      downLatch := false, highErrorLatch := false, quietLatch := false
      worst := Vector.ofFn fun i : Lane => if s.lnk.active[i] then s.lnk.grades[i] else 7 }
    (∀ w, s.lnk.partner = some w → ∃ t, exec (.readLinkStatus tag []) s = .next t ∧
      OnlyMessages (s.popRequest.setLnk l) t ∧
      Answered s t 0x60 tag .done (s.lnk.headFields ++ ([1] ++ pack8 (w.half.toNat + 2 * w.full.toNat) ++
        [w.lanes] ++ packFlag w.quiet ++ pack8 (s.lnk.grantReceived.getD 0) ++
        pack8 (s.lnk.grantApplied.getD 0) ++ [w.user]) ++ s.lnk.tailFields s.osc)) ∧
    (s.lnk.partner = none → ∃ t fs, exec (.readLinkStatus tag []) s = .next t ∧
      OnlyMessages ((s.popRequest.setFree (s.freeIndex + 6)).setLnk l) t ∧ fs.length = 6 ∧
      Answered s t 0x60 tag .done (s.lnk.headFields ++ ([0] ++ fs) ++ s.lnk.tailFields s.osc))) ∧
  (∀ (tag b : Byte) (s : State), Stands s 0x61 tag [b] →
    ∃ t, exec (.readLinkCounters tag [b]) s = .next t ∧
      OnlyMessages (s.popRequest.setLnk (if b = 0 then s.lnk else { s.lnk with
        counters := ⟨0, 0, 0, 0, 0, 0, 0, 0, 0⟩ })) t ∧
      Answered s t 0x61 tag .done s.lnk.counters.fields) ∧
  (∀ (tag : Byte) (ps : List Byte) (s : State), Stands s 0x62 tag ps → ps.length = 18 →
    let th : Vector Nat 7 := Vector.ofFn fun i : Fin 7 => field ps (2 + 2 * i.val) 2
    let w := field ps 0 2
    let q : QualitySettings :=
      ⟨if w < 256 then 128 else if w < 512 then 256 else if w < 1024 then 512 else 1024, th,
        min (field ps 16 1) 63, min (field ps 17 1) 6⟩
    let ok := (∀ i : Fin 7, th[i] ≤ 1023) ∧ ∀ i j : Fin 7, i < j → th[j] < th[i]
    (ok → ∃ t, exec (.setLinkQuality tag ps) s = .next t ∧
      OnlyMessages (s.popRequest.setLnk (if q.windowLength = s.lnk.quality.windowLength
        then { s.lnk with quality := q }
        else { s.lnk with
          quality := q, lowWindows := 0, crcTally := 0
          windowEnd := if s.lnk.state = .up then some (s.osc + q.windowLength * 750) else none })) t ∧
      Answered s t 0x62 tag .done q.fields) ∧
    (¬ ok → ∃ t, exec (.setLinkQuality tag ps) s = .next t ∧ OnlyMessages s.popRequest t ∧
      Answered s t 0x62 tag .range []))

/-! ## Channels, messages, clears -/

/-- The requests of the Channel Filter, the Return Channel and the Message Engine: an entry is rewritten, its
hit count 0, unless no enabled CONTROL entry would remain; the priorities, mask and enables are replaced; the
reads answer and clear; Identify answers part, revision and serial number. Summary bits set in one event, one of
them newly and enabled while no attention is outstanding, raise one Attention report with the summary after the
event and Tether Time; otherwise they raise none. -/
def Obligations.ChannelAndEngineRequests : Prop :=
  (∀ (tag : Byte) (ps : List Byte) (i : Fin 8) (d : Destination) (s : State), Stands s 0x68 tag ps →
    ps.length = 7 → field ps 0 1 = i.val → field ps 2 2 ≤ 0xFFF → field ps 4 2 ≤ 0xFFF →
    destinationOfCode (field ps 6 1) = some d →
    let e : FilterEntry :=
      ⟨flagField ps 1, BitVec.ofNat 12 (field ps 2 2), BitVec.ofNat 12 (field ps 4 2), d, 0⟩
    let es := s.cfl.entries.set i e
    let controlled := ∃ j : Fin 8, es[j].enabled = true ∧ es[j].dest = .control
    (controlled → ∃ t, exec (.setChannelFilter tag ps) s = .next t ∧
      OnlyMessages (s.popRequest.setCfl { s.cfl with entries := es }) t ∧
      Answered s t 0x68 tag .done (pack8 i.val ++ packFlag e.enabled ++ pack16 (field ps 2 2) ++
        pack16 (field ps 4 2) ++ pack8 d.code)) ∧
    (¬ controlled → ∃ t, exec (.setChannelFilter tag ps) s = .next t ∧ OnlyMessages s.popRequest t ∧
      Answered s t 0x68 tag .state [])) ∧
  (∀ (tag : Byte) (ps : List Byte) (s : State), Stands s 0x68 tag ps → ps.length = 7 →
    (7 < field ps 0 1 ∨ 0xFFF < field ps 2 2 ∨ 0xFFF < field ps 4 2 ∨
      destinationOfCode (field ps 6 1) = none) →
    ∃ t, exec (.setChannelFilter tag ps) s = .next t ∧ OnlyMessages s.popRequest t ∧
      Answered s t 0x68 tag .range []) ∧
  (∀ (tag b : Byte) (s : State), Stands s 0x69 tag [b] →
    ∃ t, exec (.readChannelFilter tag [b]) s = .next t ∧
      OnlyMessages (s.popRequest.setCfl (if b = 0 then s.cfl
        else ⟨s.cfl.entries.map fun e => { e with hits := 0 }, 0⟩)) t ∧
      Answered s t 0x69 tag .done s.cfl.fields) ∧
  (∀ (tag a b c d : Byte) (s : State), Stands s 0x6A tag [a, b, c, d] →
    (a.toNat ≤ 3 ∧ b.toNat ≤ 3 ∧ c.toNat ≤ 3 ∧ d.toNat ≤ 3 →
      ∃ t, exec (.setReturnPriority tag [a, b, c, d]) s = .next t ∧
        OnlyMessages (s.popRequest.setRch { s.rch with
          priority := ⟨a.toNat, b.toNat, c.toNat, d.toNat⟩ }) t ∧
        Answered s t 0x6A tag .done [a, b, c, d]) ∧
    (3 < a.toNat ∨ 3 < b.toNat ∨ 3 < c.toNat ∨ 3 < d.toNat →
      ∃ t, exec (.setReturnPriority tag [a, b, c, d]) s = .next t ∧ OnlyMessages s.popRequest t ∧
        Answered s t 0x6A tag .range [])) ∧
  (∀ (tag b : Byte) (s : State), Stands s 0x6B tag [b] →
    ∃ t, exec (.readReturnStatus tag [b]) s = .next t ∧
      OnlyMessages (s.popRequest.setRch (if b = 0 then s.rch else { s.rch with
        superseded := 0, dropped := ⟨0, 0, 0, 0⟩, sent := ⟨0, 0, 0, 0⟩ })) t ∧
      Answered s t 0x6B tag .done s.returnFields) ∧
  (∀ (tag : Byte) (s : State), Stands s 0x70 tag [] →
    ∃ t, exec (.identify tag []) s = .next t ∧ OnlyMessages s.popRequest t ∧
      Answered s t 0x70 tag .done (pack16 0x4840 ++ pack8 2 ++ pack32 s.cst.serialNumber.toNat)) ∧
  (∀ (tag b : Byte) (s : State), Stands s 0x71 tag [b] →
    let m := { s.popRequest.mge with summary := 0, outstanding := false }
    ∃ t, exec (.readSummary tag [b]) s = .next t ∧ t.mge.outstanding = false ∧
      OnlyMessages (s.popRequest.setMge (if b = 0 then m else { m with
        overruns := 0, protocolErrors := 0, malformed := 0, reportDrops := 0 })) t ∧
      Answered s t 0x71 tag .done s.mge.fields) ∧
  (∀ (tag m : Byte) (s : State), Stands s 0x72 tag [m] →
    ∃ t, exec (.setAttentionEnable tag [m]) s = .next t ∧
      OnlyMessages (s.popRequest.setMge { s.popRequest.mge with mask := m }) t ∧
      Answered s t 0x72 tag .done [m]) ∧
  (∀ (tag a b c d e f : Byte) (s : State), Stands s 0x73 tag [a, b, c, d, e, f] →
    let on := fun x : Byte => decide (x ≠ 0)
    ∃ t, exec (.setReportEnable tag [a, b, c, d, e, f]) s = .next t ∧
      OnlyMessages (s.popRequest.setMge { s.popRequest.mge with
        enables := ⟨on a, on b, on c, on d, on e, on f⟩ }) t ∧
      Answered s t 0x73 tag .done (packFlag (on a) ++ packFlag (on b) ++ packFlag (on c) ++
        packFlag (on d) ++ packFlag (on e) ++ packFlag (on f))) ∧
  (∀ (bits : BitVec 8) (s : State),
    let raises := bits &&& ~~~s.mge.summary &&& s.mge.mask ≠ 0 ∧ s.mge.outstanding = false
    OnlyMessages (s.withBits bits) (s.setSummary bits) ∧
    (raises → (s.setSummary bits).mge.outstanding = true ∧ Reported (s.setSummary bits) .attention
      (pack8 (s.mge.summary ||| bits).toNat ++ packTime s.tas.now)) ∧
    (¬ raises → s.setSummary bits = s.withBits bits))

/-- Function Clear of each target clears what its chapter names and nothing else, and answers the target; a
code that names no target is answered RANGE. -/
def Obligations.FunctionClearsClearTheirArea : Prop :=
  ∀ (tag : Byte) (s : State),
    (Stands s 0x74 tag [1] → ∃ t, exec (.functionClearPicture tag [1]) s = .next t ∧
      OnlyMessages (s.popRequest.setFri t.fri) t ∧ t.fri.mode = s.fri.mode ∧
      (∀ q, (t.fri.eyes.get q).completions = 0 ∧
        (t.fri.eyes.get q).counters = (s.fri.eyes.get q).counters ∧
        ∀ i : Fin 3,
          ((s.fri.eyes.get q).slots[i].state = .scanning →
            (t.fri.eyes.get q).slots[i] = (s.fri.eyes.get q).slots[i]) ∧
          ((s.fri.eyes.get q).slots[i].state ≠ .scanning →
            (t.fri.eyes.get q).slots[i].state = .free)) ∧
      Answered s t 0x74 tag .done (pack8 1)) ∧
    (Stands s 0x74 tag [2] → ∃ t, exec (.functionClearAudio tag [2]) s = .next t ∧
      OnlyMessages (s.popRequest.setAud { s.aud with
        queue := [], current := none, play := .idle, capturing := false, partialBlock := none
        captureQueue := [], blockNumber := 0 }) t ∧
      Answered s t 0x74 tag .done (pack8 2)) ∧
    (Stands s 0x74 tag [3] → ∃ t, exec (.functionClearMotion tag [3]) s = .next t ∧
      OnlyMessages ((s.popRequest.setSmp { s.smp with
        ring := [], held := ⟨0, 0, 0, 0, 0, 0, 0, 0⟩, batch := [] }).setOri { s.ori with
        yaw := 0, pitch := 0, roll := 0, previousTime := none, history := [] }) t ∧
      Answered s t 0x74 tag .done (pack8 3)) ∧
    (Stands s 0x74 tag [4] → ∃ t, exec (.functionClearActions tag [4]) s = .next t ∧
      OnlyMessages (s.popRequest.setTas { s.tas with table := [] }) t ∧
      Answered s t 0x74 tag .done (pack8 4)) ∧
    (Stands s 0x74 tag [5] → ∃ t, exec (.functionClearCounters tag [5]) s = .next t ∧
      OnlyMessages { s.popRequest with
        tas := { s.tas with stepCount := 0, markCount := 0, malformedMarks := 0 }
        smp := { s.smp with
          overruns := 0, failedReads := ⟨0, 0⟩, saturatedValues := 0, faultEntries := 0 }
        ori := { s.ori with intervalClamps := 0, lookups := 0, missing := 0, aged := 0 }
        fri := { s.fri with
          eyes := ⟨{ s.fri.eyes.left with counters := ⟨0, 0, 0, 0, 0, 0, 0, 0, 0⟩ },
            { s.fri.eyes.right with counters := ⟨0, 0, 0, 0, 0, 0, 0, 0, 0⟩ }⟩ }
        sco := { s.sco with
          panels := ⟨{ s.sco.panels.left with counters := ⟨0, 0, 0, 0⟩ },
            { s.sco.panels.right with counters := ⟨0, 0, 0, 0⟩ }⟩ }
        aud := { s.aud with counters := ⟨0, 0, 0, 0, 0, 0, 0, 0⟩ }
        pmg := { s.pmg with overContract := 0, stageChanges := 0, emergencies := 0 }
        lnk := { s.lnk with counters := ⟨0, 0, 0, 0, 0, 0, 0, 0, 0⟩ }
        cfl := ⟨s.cfl.entries.map fun e => { e with hits := 0 }, 0⟩
        rch := { s.rch with superseded := 0, dropped := ⟨0, 0, 0, 0⟩, sent := ⟨0, 0, 0, 0⟩ }
        mge := { s.popRequest.mge with
          overruns := 0, protocolErrors := 0, malformed := 0, reportDrops := 0 }
        cst := { s.cst with loads := 0, erases := 0, programs := 0, refusals := 0 } } t ∧
      Answered s t 0x74 tag .done (pack8 5)) ∧
    ∀ (b : Byte), (b = 0 ∨ 5 < b.toNat) → Stands s 0x74 tag [b] →
      ∀ c ∈ [Instr.functionClearPicture tag [b], .functionClearAudio tag [b],
          .functionClearMotion tag [b], .functionClearActions tag [b], .functionClearCounters tag [b]],
        ∃ t, exec c s = .next t ∧ OnlyMessages s.popRequest t ∧ Answered s t 0x74 tag .range []

/-- Hub Reset forms its reply at dispatch and stays in progress, and is BUSY during a store operation or
another Hub Reset; when the reply's transmission completes the blocks take the Hub Reset values listed here and
the load begins, or is owed while an erase or program runs, whose end begins it, while the link, Tether Time, the
contract and the filter's entries stay; of the loopback only one still ARMED ends. The lane then idles, every slot
being EMPTY, but for the next ability word in TRAIN and the next echo of a loopback that runs on. -/
def Obligations.HubResetTakesEffectWhenSent : Prop :=
  (∀ (tag : Byte) (s : State), Stands s 0x75 tag [] →
    (s.cst.op = .idle → (∀ e ∈ s.mge.inProgress, ∀ n, e.resource ≠ .reset n) →
      ∃ t, exec (.hubReset tag []) s = .next t ∧
        OnlyMessages (s.popRequest.setMge { s.popRequest.mge with inProgress :=
          s.mge.inProgress ++ [⟨0x75, tag, .reset s.mge.nextSerial⟩] }) t ∧
        Answered s t 0x75 tag .done []) ∧
    (s.cst.op ≠ .idle ∨ (∃ e ∈ s.mge.inProgress, ∃ n, e.resource = .reset n) →
      ∃ t, exec (.hubReset tag []) s = .next t ∧ OnlyMessages s.popRequest t ∧
        Answered s t 0x75 tag .busy [])) ∧
  (∀ (s : State) (i : Fin 4) (r : Reply) (f : List Byte) (ends : Nat), s.powered = true →
    s.lnk.u0 = .slot i f ends → s.rch.slots[i] = .transmitting (.reply r) →
    (∃ e ∈ s.mge.inProgress, e.resource = .reset r.serial) → (∀ d, s.lnk.loopback ≠ .armed d r.serial) →
    let u := s.advanceTo ends
    let writes := (∃ p e, s.cst.op = .erasing p e) ∨ ∃ p o d e, s.cst.op = .programming p o d e
    let l := { s.lnk with
      counters := { s.lnk.counters with sent := satInc s.lnk.counters.sent }
      loopback := match s.lnk.loopback with
        | .armed _ _ => .none
        | x => x }
    ∃ t, exec .transmissionComplete s = .next t ∧ t.osc = u.osc ∧
      t.tas = { u.tas with table := [], markCount := 0, malformedMarks := 0 } ∧
      t.mge.requests = [] ∧ t.mge.inProgress = [] ∧ t.mge.replies = [] ∧ t.mge.reports = [] ∧
      t.mge.admitted = 0 ∧ t.mge.summary = 0 ∧ t.mge.outstanding = false ∧ t.mge.mask = 0xFF ∧
      t.mge.enables = ⟨false, true, true, true, true, true⟩ ∧
      (∀ j : Fin 4, t.rch.slots[j] = .empty) ∧ t.rch.pendingMotion = none ∧
      t.rch.priority = ⟨0, 3, 1, 2⟩ ∧ t.rch.sent = ⟨0, 0, 0, 0⟩ ∧
      (s.lnk.state = .train → t.lnk = { l with
        u0 := .abilityWord ⟨true, true, 4, true, s.lnk.sentRequest, s.lnk.sentUser⟩ (u.osc + 192) }) ∧
      (s.lnk.state ≠ .train → s.lnk.suspended = false ∨ s.lnk.echoQueue = [] →
        t.lnk = { l with u0 := .idle }) ∧
      (∀ g rest, s.lnk.state ≠ .train → s.lnk.suspended = true → s.lnk.echoQueue = g :: rest →
        t.lnk = { l with echoQueue := rest, u0 := .echo g false (u.osc + g.length * 24) }) ∧
      t.pmg.contract = s.pmg.contract ∧ t.pmg.rails = s.pmg.rails ∧ t.pmg.stage = 0 ∧
      t.pmg.emergency = false ∧ t.pmg.window = none ∧
      t.fri.mode = none ∧ (∀ q, (t.fri.eyes.get q).completions = 0 ∧
        (t.fri.eyes.get q).counters = ⟨0, 0, 0, 0, 0, 0, 0, 0, 0⟩ ∧
        ∀ j : Fin 3, (t.fri.eyes.get q).slots[j].state = .free ∧
          (t.fri.eyes.get q).slots[j].lines = (s.fri.eyes.get q).slots[j].lines) ∧
      t.sco.refreshDue = none ∧ t.sco.refreshing = none ∧ (∀ q, (t.panel q).state = .off) ∧
      t.sco.geometry = s.sco.geometry ∧ t.ori.axisMap = s.ori.axisMap ∧ t.ori.history = [] ∧
      t.smp.slotList = s.smp.slotList ∧ t.smp.ring = [] ∧ t.smp.tickDue = none ∧ t.smp.set = none ∧
      t.aud.queue = [] ∧ t.aud.current = none ∧ t.aud.play = .idle ∧ t.aud.requestedAtt = 24 ∧
      t.aud.capturing = false ∧ t.aud.portStart = s.aud.portStart ∧
      t.cfl = ⟨s.cfl.entries.map fun e => { e with hits := 0 }, 0⟩ ∧
      (writes → t.cst = { s.cst with loadOwed := true }) ∧
      (¬ writes → t.cst = { s.cst with op := .loading (u.osc + ms 5) }))

/-- A fill places, into the lowest EMPTY slot, the first waiting item of the class of lowest priority value
among those below their limits, ties in the order REPLY, MOTION, CAPTURE, REPORT, and goes on until no slot is
EMPTY or no class can be placed. A new motion report supersedes the one in an OCCUPIED slot or the pending
one, counted, and is pending while one is being transmitted. The arbitration grants a free U0, outside DOWN
and a running loopback, to the OCCUPIED slot of the lowest priority value, the lowest index among equals, and
else changes nothing. ABILITY_WORD_END: outside a running loopback the arbitration is made; where it grants
nothing the next ability word follows in TRAIN, and elsewhere U0 idles; in a running loopback the next echo
follows. That an ability word still on U0 outside TRAIN is sent to its end, and the lane idles after it, is
log entry 16. -/
def Obligations.FreeLaneGrantsBestSlot : Prop :=
  (∀ s : State, s.lnk.state ≠ .down →
    let rank : ItemClass → Nat
      | .reply => 0
      | .motion => 1
      | .capture => 2
      | .report => 3
    let may := fun c => s.waiting c ≠ none ∧ s.rch.holding c < c.limit
    ((∀ i : Fin 4, s.rch.slots[i] ≠ .empty) ∨ (∀ c, ¬ may c) → s.fill = s) ∧
    ∀ (i : Fin 4) (c : ItemClass) (item : Item), s.rch.slots[i] = .empty →
      (∀ j : Fin 4, j < i → s.rch.slots[j] ≠ .empty) → may c → s.waiting c = some item →
      (∀ d, may d → s.rch.priority.get c < s.rch.priority.get d ∨
        (s.rch.priority.get c = s.rch.priority.get d ∧ rank c ≤ rank d)) →
      let t := s.dropWaiting c
      s.fill = (t.setRch { t.rch with slots := t.rch.slots.set i (.occupied item) }).fill) ∧
  (∀ (payload : List Byte) (s : State),
    let pend := s.setRch { s.rch with
      pendingMotion := some payload
      superseded := if s.rch.pendingMotion = none then s.rch.superseded else satInc s.rch.superseded }
    ((∀ i : Fin 4, ∀ p, s.rch.slots[i].item ≠ some (.motion p)) →
      OnlyMessages pend (s.offerMotion payload)) ∧
    ∀ (i : Fin 4) (old : List Byte),
      (∀ j : Fin 4, j ≠ i → ∀ p, s.rch.slots[j].item ≠ some (.motion p)) →
      (s.rch.slots[i] = .occupied (.motion old) → s.offerMotion payload = s.setRch { s.rch with
        slots := s.rch.slots.set i (.occupied (.motion payload))
        superseded := satInc s.rch.superseded }) ∧
      (s.rch.slots[i] = .transmitting (.motion old) → s.offerMotion payload = pend)) ∧
  (∀ s : State,
    (s.lnk.state = .down ∨ s.lnk.u0 ≠ .idle ∨ s.lnk.suspended = true ∨
      (∀ (i : Fin 4) (item : Item), s.rch.slots[i] ≠ .occupied item) → s.arbitrate = s) ∧
    ∀ (i : Fin 4) (item : Item), s.lnk.state ≠ .down → s.lnk.u0 = .idle → s.lnk.suspended = false →
      s.rch.slots[i] = .occupied item →
      (∀ (j : Fin 4) (other : Item), s.rch.slots[j] = .occupied other →
        s.rch.priority.get item.itemClass < s.rch.priority.get other.itemClass ∨
          (s.rch.priority.get item.itemClass = s.rch.priority.get other.itemClass ∧ i ≤ j)) →
      s.arbitrate = (s.setRch { s.rch with slots := s.rch.slots.set i (.transmitting item) }).setLnk { s.lnk with
        u0 := .slot i item.frame (s.osc + (item.payload.length + 8) * 24) }) ∧
  ∀ (s : State) (w : PartWord) (ends : Nat), s.powered = true → s.lnk.u0 = .abilityWord w ends →
    let u := s.advanceTo ends
    (s.lnk.suspended = false → s.lnk.state ≠ .down →
      ((∀ (i : Fin 4) (item : Item), s.rch.slots[i] ≠ .occupied item) →
        (s.lnk.state = .train → exec .abilityWordEnd s = .next (u.setLnk { s.lnk with
          u0 := .abilityWord ⟨true, true, 4, true, s.lnk.sentRequest, s.lnk.sentUser⟩
            (u.osc + 192) })) ∧
        (s.lnk.state ≠ .train →
          exec .abilityWordEnd s = .next (u.setLnk { s.lnk with u0 := .idle }))) ∧
      ∀ (i : Fin 4) (item : Item), s.rch.slots[i] = .occupied item →
        (∀ (j : Fin 4) (other : Item), s.rch.slots[j] = .occupied other →
          s.rch.priority.get item.itemClass < s.rch.priority.get other.itemClass ∨
            (s.rch.priority.get item.itemClass = s.rch.priority.get other.itemClass ∧ i ≤ j)) →
        exec .abilityWordEnd s = .next ((u.setRch { s.rch with
          slots := s.rch.slots.set i (.transmitting item) }).setLnk { s.lnk with
          u0 := .slot i item.frame (u.osc + (item.payload.length + 8) * 24) })) ∧
    (s.lnk.suspended = true →
      (s.lnk.echoQueue = [] →
        exec .abilityWordEnd s = .next (u.setLnk { s.lnk with u0 := .idle })) ∧
      ∀ (g : List Byte) (rest : List (List Byte)), s.lnk.echoQueue = g :: rest →
        exec .abilityWordEnd s = .next (u.setLnk { s.lnk with
          echoQueue := rest, u0 := .echo g false (u.osc + g.length * 24) }))

/-- TRANSMISSION_COMPLETE: the slot empties, and the item with it is gone from what is on its way; its class
and the frame are counted as sent; a reply sent lowers the admitted count, and starts the loopback that waits
for it; then the slots are filled (what a fill and the arbitration are, FreeLaneGrantsBestSlot says), and last
the free lane is arbitrated, or in TRAIN takes the ability word, or in a running loopback the next echo. The
reply of a Hub Reset is HubResetTakesEffectWhenSent's. -/
def Obligations.TransmissionCompletes : Prop :=
  ∀ (s : State) (i : Fin 4) (item : Item) (f : List Byte) (ends : Nat), s.powered = true →
    s.lnk.u0 = .slot i f ends → s.rch.slots[i] = .transmitting item →
    let u := s.advanceTo ends
    let c := item.itemClass
    let x := (u.setRch { s.rch with
        slots := s.rch.slots.set i .empty
        sent := s.rch.sent.set c (satInc (s.rch.sent.get c)) }).setLnk { s.lnk with
      u0 := .idle, counters := { s.lnk.counters with sent := satInc s.lnk.counters.sent } }
    let y := x.setMge { s.mge with admitted := s.mge.admitted - 1 }
    let goes := fun z : State =>
      let leads := fun t : State => exec .transmissionComplete s = .next t ∧
        ∀ a, a ∈ t.items ↔ (∃ j : Fin 4, j ≠ i ∧ s.rch.slots[j].item = some a) ∨ ∃ d, a ∈ s.queued d
      (s.lnk.state = .train → leads (z.fill.setLnk { z.lnk with
        u0 := .abilityWord ⟨true, true, 4, true, s.lnk.sentRequest, s.lnk.sentUser⟩ (u.osc + 192) })) ∧
      (s.lnk.state ≠ .train →
        (z.lnk.suspended = false → leads z.fill.arbitrate) ∧
        (z.lnk.suspended = true → s.lnk.echoQueue = [] → leads z.fill) ∧
        ∀ g rest, z.lnk.suspended = true → s.lnk.echoQueue = g :: rest → leads (z.fill.setLnk { z.lnk with
          echoQueue := rest, u0 := .echo g false (u.osc + g.length * 24) }))
    ((∀ r, item ≠ .reply r) → goes x) ∧
    ∀ r, item = .reply r → (∀ e ∈ s.mge.inProgress, e.resource ≠ .reset r.serial) →
      ((∀ d, s.lnk.loopback ≠ .armed d r.serial) → goes y) ∧
      ∀ d, s.lnk.loopback = .armed d r.serial →
        goes (y.setLnk { x.lnk with loopback := .running (u.osc + ms (d * 1000)) })

/-! ## Calibration Store -/

/-- The store's requests past their checks: an erase or program starts and holds the store; Read Store and
Blank Check answer the array; Set Protect Boundary raises the boundary; Read Store Map answers in every
state. Each check that fails answers its own status, counts a refusal and sets STORE. That the LENGTH refusal of
Read Store Map does so too is log entry 35, and that STORE is set before the refusal's reply is formed log
entry 21. -/
def Obligations.StoreRequestsChecked : Prop :=
  ∀ (tag : Byte) (ps : List Byte) (s : State),
    let page := field ps 0 1
    let offset := field ps 1 2
    let refusedBy := fun (c : Instr) (k : Byte) (st : Status) => ∃ t, exec c s = .next t ∧
      OnlyMessages ((s.popRequest.setCst { s.cst with
        refusals := satInc s.cst.refusals }).withBits bitStore) t ∧ Answered s t k tag st []
    let starts := fun (c : Instr) (k : Byte) (op : StoreOp) => exec c s =
      .next ((s.popRequest.setCst { s.cst with op := op }).setMge { s.popRequest.mge with
        inProgress := s.mge.inProgress ++ [⟨k, tag, .store⟩] })
    (Stands s 0x78 tag ps →
      (ps.length ≠ 1 → refusedBy (.erasePage tag ps) 0x78 .length) ∧
      (ps.length = 1 → 7 < page → refusedBy (.erasePage tag ps) 0x78 .range) ∧
      (ps.length = 1 → page ≤ 7 →
        (s.cst.op ≠ .idle → refusedBy (.erasePage tag ps) 0x78 .busy) ∧
        (s.cst.op = .idle → page < s.cst.boundary → refusedBy (.erasePage tag ps) 0x78 .isProtected) ∧
        (s.cst.op = .idle → s.cst.boundary ≤ page →
          starts (.erasePage tag ps) 0x78 (.erasing page (s.osc + ms 20))))) ∧
    (Stands s 0x79 tag ps →
      let count := field ps 3 1
      (ps.length ≠ 4 + count → refusedBy (.programStore tag ps) 0x79 .length) ∧
      (ps.length = 4 + count → 7 < page ∨ count = 0 ∨ 64 < count ∨ 1024 < offset + count →
        refusedBy (.programStore tag ps) 0x79 .range) ∧
      (ps.length = 4 + count → page ≤ 7 → 1 ≤ count → count ≤ 64 → offset + count ≤ 1024 →
        (s.cst.op ≠ .idle → refusedBy (.programStore tag ps) 0x79 .busy) ∧
        (s.cst.op = .idle → page < s.cst.boundary →
          refusedBy (.programStore tag ps) 0x79 .isProtected) ∧
        (s.cst.op = .idle → s.cst.boundary ≤ page →
          let at' := page * 1024 + offset
          ((∃ n < count, storeRead s.cst.array (at' + n) ≠ 0xFF) →
            refusedBy (.programStore tag ps) 0x79 .notBlank) ∧
          ((∀ n < count, storeRead s.cst.array (at' + n) = 0xFF) →
            starts (.programStore tag ps) 0x79
              (.programming page offset (ps.drop 4) (s.osc + ms 1)))))) ∧
    (Stands s 0x7A tag ps →
      let count := field ps 3 2
      (ps.length ≠ 5 → refusedBy (.readStore tag ps) 0x7A .length) ∧
      (ps.length = 5 → 7 < page ∨ count = 0 ∨ 256 < count ∨ 1024 < offset + count →
        refusedBy (.readStore tag ps) 0x7A .range) ∧
      (ps.length = 5 → page ≤ 7 → 1 ≤ count → count ≤ 256 → offset + count ≤ 1024 →
        (s.cst.op ≠ .idle → refusedBy (.readStore tag ps) 0x7A .busy) ∧
        (s.cst.op = .idle → ∃ t, exec (.readStore tag ps) s = .next t ∧ OnlyMessages s.popRequest t ∧
          Answered s t 0x7A tag .done (pack8 page ++ pack16 offset ++ pack16 count ++
            (List.range count).map fun n => storeRead s.cst.array (page * 1024 + offset + n))))) ∧
    (Stands s 0x7B tag ps →
      (ps.length ≠ 1 → refusedBy (.blankCheck tag ps) 0x7B .length) ∧
      (ps.length = 1 → 7 < page → refusedBy (.blankCheck tag ps) 0x7B .range) ∧
      (ps.length = 1 → page ≤ 7 →
        (s.cst.op ≠ .idle → refusedBy (.blankCheck tag ps) 0x7B .busy) ∧
        (s.cst.op = .idle → ∃ t b, exec (.blankCheck tag ps) s = .next t ∧
          OnlyMessages s.popRequest t ∧ Answered s t 0x7B tag .done (pack8 page ++ packFlag b) ∧
          (b = true ↔ ∀ n < 1024, storeRead s.cst.array (page * 1024 + n) = 0xFF)))) ∧
    (Stands s 0x7C tag ps →
      (ps.length ≠ 1 → refusedBy (.setProtectBoundary tag ps) 0x7C .length) ∧
      (ps.length = 1 → 8 < page → refusedBy (.setProtectBoundary tag ps) 0x7C .range) ∧
      (ps.length = 1 → page ≤ 8 →
        (s.cst.op ≠ .idle → refusedBy (.setProtectBoundary tag ps) 0x7C .busy) ∧
        (s.cst.op = .idle → page < s.cst.boundary →
          refusedBy (.setProtectBoundary tag ps) 0x7C .isProtected) ∧
        (s.cst.op = .idle → s.cst.boundary ≤ page →
          ∃ t, exec (.setProtectBoundary tag ps) s = .next t ∧
            OnlyMessages (s.popRequest.setCst { s.cst with boundary := page }) t ∧
            Answered s t 0x7C tag .done (pack8 page)))) ∧
    (Stands s 0x7D tag ps →
      (ps.length ≠ 1 → refusedBy (.readStoreMap tag ps) 0x7D .length) ∧
      (ps.length = 1 → ∃ t, exec (.readStoreMap tag ps) s = .next t ∧
        OnlyMessages (s.popRequest.setCst (if page = 0 then s.cst
          else { s.cst with loads := 0, erases := 0, programs := 0, refusals := 0 })) t ∧
        Answered s t 0x7D tag .done s.cst.mapFields))

/-- ERASE_END and PROGRAM_END: every byte of the erased page is 0xFF, or the target bytes hold the data, and
every other byte stays; the operation is counted, STORE set, the request that holds the store answered DONE,
and no reply formed where none holds it, as after a Hub Reset; the load of a Hub Reset that came meanwhile
begins. -/
def Obligations.StoreOperationsEnd : Prop :=
  let ends := fun (s : State) (o : Host.Outcome State Fault Refusal) (e : Nat) (c : Cst) (k : Byte)
      (fs : List Byte) (stored : StoreMemory → Prop) =>
    let u := s.advanceTo e
    let after := fun (t : State) (left : List InProgress) => ((u.setCst { c with
        op := if s.cst.loadOwed then .loading (u.osc + ms 5) else .idle, loadOwed := false
        array := t.cst.array }).setMge { s.mge with inProgress := left }).withBits bitStore
    (∀ tag, s.mge.inProgress = [⟨k, tag, .store⟩] → ∃ t, o = .next t ∧ OnlyMessages (after t []) t ∧
      Answered s t k tag .done fs ∧ stored t.cst.array) ∧
    ((∀ p ∈ s.mge.inProgress, p.resource ≠ .store) → ∃ t, o = .next t ∧
      OnlyMessages (after t s.mge.inProgress) t ∧ t.mge.nextSerial = s.mge.nextSerial ∧
      stored t.cst.array)
  (∀ (s : State) (p : Fin 8) (e : Nat), s.powered = true → s.cst.op = .erasing p.val e →
    ends s (exec .eraseEnd s) e { s.cst with erases := satInc s.cst.erases } 0x78 (pack8 p.val)
      fun m => ∀ a, storeRead m a = if a / 1024 = p.val then 0xFF else storeRead s.cst.array a) ∧
  (∀ (s : State) (p : Fin 8) (o : Nat) (d : List Byte) (e : Nat), s.powered = true →
    storeWf s.cst.array = true → s.cst.op = .programming p.val o d e → o + d.length ≤ 1024 →
    let first := p.val * 1024 + o
    ends s (exec .programEnd s) e { s.cst with programs := satInc s.cst.programs } 0x79
      (pack8 p.val ++ pack16 o ++ pack8 d.length)
      fun m => (∀ n (h : n < d.length), storeRead m (first + n) = d[n]) ∧
        ∀ a, a < first ∨ first + d.length ≤ a → storeRead m a = storeRead s.cst.array a)

/-- Between loads the protect boundary never falls and no page below it changes, whatever command a step
takes; an operation in progress stays on unprotected pages, which every step keeps. -/
def Obligations.ProtectedPagesNeverChange : Prop :=
  ∀ s t : State, s.cst.opHeld → step s = .next t →
    t.cst.opHeld ∧
    (s.pending.head? ≠ some .storeLoadEnd → s.pending.head? ≠ some .powerOnReset →
      s.cst.boundary ≤ t.cst.boundary ∧
      ∀ a, a / 1024 < s.cst.boundary → storeRead t.cst.array a = storeRead s.cst.array a)

/-! ## Invariants -/

/-- Every step keeps the manual's bounds: the queues, the Action Table and the rings within their capacities,
the Action Table in table order with ids that differ, the Sample Ring and the Pose History holding the same
sequence numbers, at most one FILLING and one SCANNING slot per eye, the Playout Queue in strictly increasing
order of presentation time, no applied emission above the cap in force, the stage in force the greatest of the
three, the contract one a grant can give, the Throttle Table in range and in order, the requested attenuation
within 255, and the store's memory in its one form. -/
def Obligations.EveryStepKeepsBounds : Prop :=
  ∀ s t : State, s.Bounded → step s = .next t → t.Bounded

/-- Every step keeps the admission account: requests waiting, in progress and replies not yet sent add up to
the admitted count, which stays within 8, so the Reply Queue never overflows. -/
def Obligations.EveryStepKeepsAdmissionCount : Prop :=
  (∀ s t : State, s.admissionHeld → step s = .next t → t.admissionHeld) ∧
    ∀ s : State, s.admissionHeld → s.mge.replies.length ≤ 8

/-- Every step keeps the transmit slots' rules: each class within its limit, the slot U0 is sending the one
that is TRANSMITTING, in DOWN every slot empty and U0 off, and outside it no slot EMPTY while a class below
its limit waits, and none OCCUPIED while U0 is free with no loopback running. -/
def Obligations.EveryStepKeepsTransmitSlots : Prop :=
  ∀ s t : State, s.slotsHeld → step s = .next t → t.slotsHeld

/-- The state after reset meets every one of these invariants. -/
def Obligations.ResetMeetsInvariants : Prop :=
  State.reset.Bounded ∧ State.reset.admissionHeld ∧ State.reset.slotsHeld ∧ State.reset.cst.opHeld
end

