-- ==== Sys2Proof/Laws/State.lean ====
section
/-! SUPPORT. One lemma per field per update of the state: each true by computation. -/

namespace Sys2Proof.Machine

section setFree
variable (s : State) (b : Nat)

@[simp] theorem State.setFree_osc : (s.setFree b).osc = s.osc := rfl
@[simp] theorem State.setFree_powered : (s.setFree b).powered = s.powered := rfl
@[simp] theorem State.setFree_freeIndex : (s.setFree b).freeIndex = b := rfl
@[simp] theorem State.setFree_tas : (s.setFree b).tas = s.tas := rfl
@[simp] theorem State.setFree_smp : (s.setFree b).smp = s.smp := rfl
@[simp] theorem State.setFree_ori : (s.setFree b).ori = s.ori := rfl
@[simp] theorem State.setFree_fri : (s.setFree b).fri = s.fri := rfl
@[simp] theorem State.setFree_sco : (s.setFree b).sco = s.sco := rfl
@[simp] theorem State.setFree_aud : (s.setFree b).aud = s.aud := rfl
@[simp] theorem State.setFree_pmg : (s.setFree b).pmg = s.pmg := rfl
@[simp] theorem State.setFree_lnk : (s.setFree b).lnk = s.lnk := rfl
@[simp] theorem State.setFree_cfl : (s.setFree b).cfl = s.cfl := rfl
@[simp] theorem State.setFree_rch : (s.setFree b).rch = s.rch := rfl
@[simp] theorem State.setFree_mge : (s.setFree b).mge = s.mge := rfl
@[simp] theorem State.setFree_cst : (s.setFree b).cst = s.cst := rfl
@[simp] theorem State.setFree_pending : (s.setFree b).pending = s.pending := rfl
@[simp] theorem State.setFree_turns : (s.setFree b).turns = s.turns := rfl
@[simp] theorem State.setFree_self : s.setFree s.freeIndex = s := rfl
@[simp] theorem State.setFree_setFree (c : Nat) : (s.setFree b).setFree c = s.setFree c := rfl

end setFree

section setTas
variable (s : State) (b : Tas)

@[simp] theorem State.setTas_osc : (s.setTas b).osc = s.osc := rfl
@[simp] theorem State.setTas_powered : (s.setTas b).powered = s.powered := rfl
@[simp] theorem State.setTas_freeIndex : (s.setTas b).freeIndex = s.freeIndex := rfl
@[simp] theorem State.setTas_tas : (s.setTas b).tas = b := rfl
@[simp] theorem State.setTas_smp : (s.setTas b).smp = s.smp := rfl
@[simp] theorem State.setTas_ori : (s.setTas b).ori = s.ori := rfl
@[simp] theorem State.setTas_fri : (s.setTas b).fri = s.fri := rfl
@[simp] theorem State.setTas_sco : (s.setTas b).sco = s.sco := rfl
@[simp] theorem State.setTas_aud : (s.setTas b).aud = s.aud := rfl
@[simp] theorem State.setTas_pmg : (s.setTas b).pmg = s.pmg := rfl
@[simp] theorem State.setTas_lnk : (s.setTas b).lnk = s.lnk := rfl
@[simp] theorem State.setTas_cfl : (s.setTas b).cfl = s.cfl := rfl
@[simp] theorem State.setTas_rch : (s.setTas b).rch = s.rch := rfl
@[simp] theorem State.setTas_mge : (s.setTas b).mge = s.mge := rfl
@[simp] theorem State.setTas_cst : (s.setTas b).cst = s.cst := rfl
@[simp] theorem State.setTas_pending : (s.setTas b).pending = s.pending := rfl
@[simp] theorem State.setTas_turns : (s.setTas b).turns = s.turns := rfl
@[simp] theorem State.setTas_self : s.setTas s.tas = s := rfl
@[simp] theorem State.setTas_setTas (c : Tas) : (s.setTas b).setTas c = s.setTas c := rfl

end setTas

section setSmp
variable (s : State) (b : Smp)

@[simp] theorem State.setSmp_osc : (s.setSmp b).osc = s.osc := rfl
@[simp] theorem State.setSmp_powered : (s.setSmp b).powered = s.powered := rfl
@[simp] theorem State.setSmp_freeIndex : (s.setSmp b).freeIndex = s.freeIndex := rfl
@[simp] theorem State.setSmp_tas : (s.setSmp b).tas = s.tas := rfl
@[simp] theorem State.setSmp_smp : (s.setSmp b).smp = b := rfl
@[simp] theorem State.setSmp_ori : (s.setSmp b).ori = s.ori := rfl
@[simp] theorem State.setSmp_fri : (s.setSmp b).fri = s.fri := rfl
@[simp] theorem State.setSmp_sco : (s.setSmp b).sco = s.sco := rfl
@[simp] theorem State.setSmp_aud : (s.setSmp b).aud = s.aud := rfl
@[simp] theorem State.setSmp_pmg : (s.setSmp b).pmg = s.pmg := rfl
@[simp] theorem State.setSmp_lnk : (s.setSmp b).lnk = s.lnk := rfl
@[simp] theorem State.setSmp_cfl : (s.setSmp b).cfl = s.cfl := rfl
@[simp] theorem State.setSmp_rch : (s.setSmp b).rch = s.rch := rfl
@[simp] theorem State.setSmp_mge : (s.setSmp b).mge = s.mge := rfl
@[simp] theorem State.setSmp_cst : (s.setSmp b).cst = s.cst := rfl
@[simp] theorem State.setSmp_pending : (s.setSmp b).pending = s.pending := rfl
@[simp] theorem State.setSmp_turns : (s.setSmp b).turns = s.turns := rfl
@[simp] theorem State.setSmp_self : s.setSmp s.smp = s := rfl
@[simp] theorem State.setSmp_setSmp (c : Smp) : (s.setSmp b).setSmp c = s.setSmp c := rfl

end setSmp

section setOri
variable (s : State) (b : Ori)

@[simp] theorem State.setOri_osc : (s.setOri b).osc = s.osc := rfl
@[simp] theorem State.setOri_powered : (s.setOri b).powered = s.powered := rfl
@[simp] theorem State.setOri_freeIndex : (s.setOri b).freeIndex = s.freeIndex := rfl
@[simp] theorem State.setOri_tas : (s.setOri b).tas = s.tas := rfl
@[simp] theorem State.setOri_smp : (s.setOri b).smp = s.smp := rfl
@[simp] theorem State.setOri_ori : (s.setOri b).ori = b := rfl
@[simp] theorem State.setOri_fri : (s.setOri b).fri = s.fri := rfl
@[simp] theorem State.setOri_sco : (s.setOri b).sco = s.sco := rfl
@[simp] theorem State.setOri_aud : (s.setOri b).aud = s.aud := rfl
@[simp] theorem State.setOri_pmg : (s.setOri b).pmg = s.pmg := rfl
@[simp] theorem State.setOri_lnk : (s.setOri b).lnk = s.lnk := rfl
@[simp] theorem State.setOri_cfl : (s.setOri b).cfl = s.cfl := rfl
@[simp] theorem State.setOri_rch : (s.setOri b).rch = s.rch := rfl
@[simp] theorem State.setOri_mge : (s.setOri b).mge = s.mge := rfl
@[simp] theorem State.setOri_cst : (s.setOri b).cst = s.cst := rfl
@[simp] theorem State.setOri_pending : (s.setOri b).pending = s.pending := rfl
@[simp] theorem State.setOri_turns : (s.setOri b).turns = s.turns := rfl
@[simp] theorem State.setOri_self : s.setOri s.ori = s := rfl
@[simp] theorem State.setOri_setOri (c : Ori) : (s.setOri b).setOri c = s.setOri c := rfl

end setOri

section setFri
variable (s : State) (b : Fri)

@[simp] theorem State.setFri_osc : (s.setFri b).osc = s.osc := rfl
@[simp] theorem State.setFri_powered : (s.setFri b).powered = s.powered := rfl
@[simp] theorem State.setFri_freeIndex : (s.setFri b).freeIndex = s.freeIndex := rfl
@[simp] theorem State.setFri_tas : (s.setFri b).tas = s.tas := rfl
@[simp] theorem State.setFri_smp : (s.setFri b).smp = s.smp := rfl
@[simp] theorem State.setFri_ori : (s.setFri b).ori = s.ori := rfl
@[simp] theorem State.setFri_fri : (s.setFri b).fri = b := rfl
@[simp] theorem State.setFri_sco : (s.setFri b).sco = s.sco := rfl
@[simp] theorem State.setFri_aud : (s.setFri b).aud = s.aud := rfl
@[simp] theorem State.setFri_pmg : (s.setFri b).pmg = s.pmg := rfl
@[simp] theorem State.setFri_lnk : (s.setFri b).lnk = s.lnk := rfl
@[simp] theorem State.setFri_cfl : (s.setFri b).cfl = s.cfl := rfl
@[simp] theorem State.setFri_rch : (s.setFri b).rch = s.rch := rfl
@[simp] theorem State.setFri_mge : (s.setFri b).mge = s.mge := rfl
@[simp] theorem State.setFri_cst : (s.setFri b).cst = s.cst := rfl
@[simp] theorem State.setFri_pending : (s.setFri b).pending = s.pending := rfl
@[simp] theorem State.setFri_turns : (s.setFri b).turns = s.turns := rfl
@[simp] theorem State.setFri_self : s.setFri s.fri = s := rfl
@[simp] theorem State.setFri_setFri (c : Fri) : (s.setFri b).setFri c = s.setFri c := rfl

end setFri

section setSco
variable (s : State) (b : Sco)

@[simp] theorem State.setSco_osc : (s.setSco b).osc = s.osc := rfl
@[simp] theorem State.setSco_powered : (s.setSco b).powered = s.powered := rfl
@[simp] theorem State.setSco_freeIndex : (s.setSco b).freeIndex = s.freeIndex := rfl
@[simp] theorem State.setSco_tas : (s.setSco b).tas = s.tas := rfl
@[simp] theorem State.setSco_smp : (s.setSco b).smp = s.smp := rfl
@[simp] theorem State.setSco_ori : (s.setSco b).ori = s.ori := rfl
@[simp] theorem State.setSco_fri : (s.setSco b).fri = s.fri := rfl
@[simp] theorem State.setSco_sco : (s.setSco b).sco = b := rfl
@[simp] theorem State.setSco_aud : (s.setSco b).aud = s.aud := rfl
@[simp] theorem State.setSco_pmg : (s.setSco b).pmg = s.pmg := rfl
@[simp] theorem State.setSco_lnk : (s.setSco b).lnk = s.lnk := rfl
@[simp] theorem State.setSco_cfl : (s.setSco b).cfl = s.cfl := rfl
@[simp] theorem State.setSco_rch : (s.setSco b).rch = s.rch := rfl
@[simp] theorem State.setSco_mge : (s.setSco b).mge = s.mge := rfl
@[simp] theorem State.setSco_cst : (s.setSco b).cst = s.cst := rfl
@[simp] theorem State.setSco_pending : (s.setSco b).pending = s.pending := rfl
@[simp] theorem State.setSco_turns : (s.setSco b).turns = s.turns := rfl
@[simp] theorem State.setSco_self : s.setSco s.sco = s := rfl
@[simp] theorem State.setSco_setSco (c : Sco) : (s.setSco b).setSco c = s.setSco c := rfl

end setSco

section setAud
variable (s : State) (b : Aud)

@[simp] theorem State.setAud_osc : (s.setAud b).osc = s.osc := rfl
@[simp] theorem State.setAud_powered : (s.setAud b).powered = s.powered := rfl
@[simp] theorem State.setAud_freeIndex : (s.setAud b).freeIndex = s.freeIndex := rfl
@[simp] theorem State.setAud_tas : (s.setAud b).tas = s.tas := rfl
@[simp] theorem State.setAud_smp : (s.setAud b).smp = s.smp := rfl
@[simp] theorem State.setAud_ori : (s.setAud b).ori = s.ori := rfl
@[simp] theorem State.setAud_fri : (s.setAud b).fri = s.fri := rfl
@[simp] theorem State.setAud_sco : (s.setAud b).sco = s.sco := rfl
@[simp] theorem State.setAud_aud : (s.setAud b).aud = b := rfl
@[simp] theorem State.setAud_pmg : (s.setAud b).pmg = s.pmg := rfl
@[simp] theorem State.setAud_lnk : (s.setAud b).lnk = s.lnk := rfl
@[simp] theorem State.setAud_cfl : (s.setAud b).cfl = s.cfl := rfl
@[simp] theorem State.setAud_rch : (s.setAud b).rch = s.rch := rfl
@[simp] theorem State.setAud_mge : (s.setAud b).mge = s.mge := rfl
@[simp] theorem State.setAud_cst : (s.setAud b).cst = s.cst := rfl
@[simp] theorem State.setAud_pending : (s.setAud b).pending = s.pending := rfl
@[simp] theorem State.setAud_turns : (s.setAud b).turns = s.turns := rfl
@[simp] theorem State.setAud_self : s.setAud s.aud = s := rfl
@[simp] theorem State.setAud_setAud (c : Aud) : (s.setAud b).setAud c = s.setAud c := rfl

end setAud

section setPmg
variable (s : State) (b : Pmg)

@[simp] theorem State.setPmg_osc : (s.setPmg b).osc = s.osc := rfl
@[simp] theorem State.setPmg_powered : (s.setPmg b).powered = s.powered := rfl
@[simp] theorem State.setPmg_freeIndex : (s.setPmg b).freeIndex = s.freeIndex := rfl
@[simp] theorem State.setPmg_tas : (s.setPmg b).tas = s.tas := rfl
@[simp] theorem State.setPmg_smp : (s.setPmg b).smp = s.smp := rfl
@[simp] theorem State.setPmg_ori : (s.setPmg b).ori = s.ori := rfl
@[simp] theorem State.setPmg_fri : (s.setPmg b).fri = s.fri := rfl
@[simp] theorem State.setPmg_sco : (s.setPmg b).sco = s.sco := rfl
@[simp] theorem State.setPmg_aud : (s.setPmg b).aud = s.aud := rfl
@[simp] theorem State.setPmg_pmg : (s.setPmg b).pmg = b := rfl
@[simp] theorem State.setPmg_lnk : (s.setPmg b).lnk = s.lnk := rfl
@[simp] theorem State.setPmg_cfl : (s.setPmg b).cfl = s.cfl := rfl
@[simp] theorem State.setPmg_rch : (s.setPmg b).rch = s.rch := rfl
@[simp] theorem State.setPmg_mge : (s.setPmg b).mge = s.mge := rfl
@[simp] theorem State.setPmg_cst : (s.setPmg b).cst = s.cst := rfl
@[simp] theorem State.setPmg_pending : (s.setPmg b).pending = s.pending := rfl
@[simp] theorem State.setPmg_turns : (s.setPmg b).turns = s.turns := rfl
@[simp] theorem State.setPmg_self : s.setPmg s.pmg = s := rfl
@[simp] theorem State.setPmg_setPmg (c : Pmg) : (s.setPmg b).setPmg c = s.setPmg c := rfl

end setPmg

section setLnk
variable (s : State) (b : Lnk)

@[simp] theorem State.setLnk_osc : (s.setLnk b).osc = s.osc := rfl
@[simp] theorem State.setLnk_powered : (s.setLnk b).powered = s.powered := rfl
@[simp] theorem State.setLnk_freeIndex : (s.setLnk b).freeIndex = s.freeIndex := rfl
@[simp] theorem State.setLnk_tas : (s.setLnk b).tas = s.tas := rfl
@[simp] theorem State.setLnk_smp : (s.setLnk b).smp = s.smp := rfl
@[simp] theorem State.setLnk_ori : (s.setLnk b).ori = s.ori := rfl
@[simp] theorem State.setLnk_fri : (s.setLnk b).fri = s.fri := rfl
@[simp] theorem State.setLnk_sco : (s.setLnk b).sco = s.sco := rfl
@[simp] theorem State.setLnk_aud : (s.setLnk b).aud = s.aud := rfl
@[simp] theorem State.setLnk_pmg : (s.setLnk b).pmg = s.pmg := rfl
@[simp] theorem State.setLnk_lnk : (s.setLnk b).lnk = b := rfl
@[simp] theorem State.setLnk_cfl : (s.setLnk b).cfl = s.cfl := rfl
@[simp] theorem State.setLnk_rch : (s.setLnk b).rch = s.rch := rfl
@[simp] theorem State.setLnk_mge : (s.setLnk b).mge = s.mge := rfl
@[simp] theorem State.setLnk_cst : (s.setLnk b).cst = s.cst := rfl
@[simp] theorem State.setLnk_pending : (s.setLnk b).pending = s.pending := rfl
@[simp] theorem State.setLnk_turns : (s.setLnk b).turns = s.turns := rfl
@[simp] theorem State.setLnk_self : s.setLnk s.lnk = s := rfl
@[simp] theorem State.setLnk_setLnk (c : Lnk) : (s.setLnk b).setLnk c = s.setLnk c := rfl

end setLnk

section setCfl
variable (s : State) (b : Cfl)

@[simp] theorem State.setCfl_osc : (s.setCfl b).osc = s.osc := rfl
@[simp] theorem State.setCfl_powered : (s.setCfl b).powered = s.powered := rfl
@[simp] theorem State.setCfl_freeIndex : (s.setCfl b).freeIndex = s.freeIndex := rfl
@[simp] theorem State.setCfl_tas : (s.setCfl b).tas = s.tas := rfl
@[simp] theorem State.setCfl_smp : (s.setCfl b).smp = s.smp := rfl
@[simp] theorem State.setCfl_ori : (s.setCfl b).ori = s.ori := rfl
@[simp] theorem State.setCfl_fri : (s.setCfl b).fri = s.fri := rfl
@[simp] theorem State.setCfl_sco : (s.setCfl b).sco = s.sco := rfl
@[simp] theorem State.setCfl_aud : (s.setCfl b).aud = s.aud := rfl
@[simp] theorem State.setCfl_pmg : (s.setCfl b).pmg = s.pmg := rfl
@[simp] theorem State.setCfl_lnk : (s.setCfl b).lnk = s.lnk := rfl
@[simp] theorem State.setCfl_cfl : (s.setCfl b).cfl = b := rfl
@[simp] theorem State.setCfl_rch : (s.setCfl b).rch = s.rch := rfl
@[simp] theorem State.setCfl_mge : (s.setCfl b).mge = s.mge := rfl
@[simp] theorem State.setCfl_cst : (s.setCfl b).cst = s.cst := rfl
@[simp] theorem State.setCfl_pending : (s.setCfl b).pending = s.pending := rfl
@[simp] theorem State.setCfl_turns : (s.setCfl b).turns = s.turns := rfl
@[simp] theorem State.setCfl_self : s.setCfl s.cfl = s := rfl
@[simp] theorem State.setCfl_setCfl (c : Cfl) : (s.setCfl b).setCfl c = s.setCfl c := rfl

end setCfl

section setRch
variable (s : State) (b : Rch)

@[simp] theorem State.setRch_osc : (s.setRch b).osc = s.osc := rfl
@[simp] theorem State.setRch_powered : (s.setRch b).powered = s.powered := rfl
@[simp] theorem State.setRch_freeIndex : (s.setRch b).freeIndex = s.freeIndex := rfl
@[simp] theorem State.setRch_tas : (s.setRch b).tas = s.tas := rfl
@[simp] theorem State.setRch_smp : (s.setRch b).smp = s.smp := rfl
@[simp] theorem State.setRch_ori : (s.setRch b).ori = s.ori := rfl
@[simp] theorem State.setRch_fri : (s.setRch b).fri = s.fri := rfl
@[simp] theorem State.setRch_sco : (s.setRch b).sco = s.sco := rfl
@[simp] theorem State.setRch_aud : (s.setRch b).aud = s.aud := rfl
@[simp] theorem State.setRch_pmg : (s.setRch b).pmg = s.pmg := rfl
@[simp] theorem State.setRch_lnk : (s.setRch b).lnk = s.lnk := rfl
@[simp] theorem State.setRch_cfl : (s.setRch b).cfl = s.cfl := rfl
@[simp] theorem State.setRch_rch : (s.setRch b).rch = b := rfl
@[simp] theorem State.setRch_mge : (s.setRch b).mge = s.mge := rfl
@[simp] theorem State.setRch_cst : (s.setRch b).cst = s.cst := rfl
@[simp] theorem State.setRch_pending : (s.setRch b).pending = s.pending := rfl
@[simp] theorem State.setRch_turns : (s.setRch b).turns = s.turns := rfl
@[simp] theorem State.setRch_self : s.setRch s.rch = s := rfl
@[simp] theorem State.setRch_setRch (c : Rch) : (s.setRch b).setRch c = s.setRch c := rfl

end setRch

section setMge
variable (s : State) (b : Mge)

@[simp] theorem State.setMge_osc : (s.setMge b).osc = s.osc := rfl
@[simp] theorem State.setMge_powered : (s.setMge b).powered = s.powered := rfl
@[simp] theorem State.setMge_freeIndex : (s.setMge b).freeIndex = s.freeIndex := rfl
@[simp] theorem State.setMge_tas : (s.setMge b).tas = s.tas := rfl
@[simp] theorem State.setMge_smp : (s.setMge b).smp = s.smp := rfl
@[simp] theorem State.setMge_ori : (s.setMge b).ori = s.ori := rfl
@[simp] theorem State.setMge_fri : (s.setMge b).fri = s.fri := rfl
@[simp] theorem State.setMge_sco : (s.setMge b).sco = s.sco := rfl
@[simp] theorem State.setMge_aud : (s.setMge b).aud = s.aud := rfl
@[simp] theorem State.setMge_pmg : (s.setMge b).pmg = s.pmg := rfl
@[simp] theorem State.setMge_lnk : (s.setMge b).lnk = s.lnk := rfl
@[simp] theorem State.setMge_cfl : (s.setMge b).cfl = s.cfl := rfl
@[simp] theorem State.setMge_rch : (s.setMge b).rch = s.rch := rfl
@[simp] theorem State.setMge_mge : (s.setMge b).mge = b := rfl
@[simp] theorem State.setMge_cst : (s.setMge b).cst = s.cst := rfl
@[simp] theorem State.setMge_pending : (s.setMge b).pending = s.pending := rfl
@[simp] theorem State.setMge_turns : (s.setMge b).turns = s.turns := rfl
@[simp] theorem State.setMge_self : s.setMge s.mge = s := rfl
@[simp] theorem State.setMge_setMge (c : Mge) : (s.setMge b).setMge c = s.setMge c := rfl

end setMge

section setCst
variable (s : State) (b : Cst)

@[simp] theorem State.setCst_osc : (s.setCst b).osc = s.osc := rfl
@[simp] theorem State.setCst_powered : (s.setCst b).powered = s.powered := rfl
@[simp] theorem State.setCst_freeIndex : (s.setCst b).freeIndex = s.freeIndex := rfl
@[simp] theorem State.setCst_tas : (s.setCst b).tas = s.tas := rfl
@[simp] theorem State.setCst_smp : (s.setCst b).smp = s.smp := rfl
@[simp] theorem State.setCst_ori : (s.setCst b).ori = s.ori := rfl
@[simp] theorem State.setCst_fri : (s.setCst b).fri = s.fri := rfl
@[simp] theorem State.setCst_sco : (s.setCst b).sco = s.sco := rfl
@[simp] theorem State.setCst_aud : (s.setCst b).aud = s.aud := rfl
@[simp] theorem State.setCst_pmg : (s.setCst b).pmg = s.pmg := rfl
@[simp] theorem State.setCst_lnk : (s.setCst b).lnk = s.lnk := rfl
@[simp] theorem State.setCst_cfl : (s.setCst b).cfl = s.cfl := rfl
@[simp] theorem State.setCst_rch : (s.setCst b).rch = s.rch := rfl
@[simp] theorem State.setCst_mge : (s.setCst b).mge = s.mge := rfl
@[simp] theorem State.setCst_cst : (s.setCst b).cst = b := rfl
@[simp] theorem State.setCst_pending : (s.setCst b).pending = s.pending := rfl
@[simp] theorem State.setCst_turns : (s.setCst b).turns = s.turns := rfl
@[simp] theorem State.setCst_self : s.setCst s.cst = s := rfl
@[simp] theorem State.setCst_setCst (c : Cst) : (s.setCst b).setCst c = s.setCst c := rfl

end setCst

section setPending
variable (s : State) (b : List Instr)

@[simp] theorem State.setPending_osc : (s.setPending b).osc = s.osc := rfl
@[simp] theorem State.setPending_powered : (s.setPending b).powered = s.powered := rfl
@[simp] theorem State.setPending_freeIndex : (s.setPending b).freeIndex = s.freeIndex := rfl
@[simp] theorem State.setPending_tas : (s.setPending b).tas = s.tas := rfl
@[simp] theorem State.setPending_smp : (s.setPending b).smp = s.smp := rfl
@[simp] theorem State.setPending_ori : (s.setPending b).ori = s.ori := rfl
@[simp] theorem State.setPending_fri : (s.setPending b).fri = s.fri := rfl
@[simp] theorem State.setPending_sco : (s.setPending b).sco = s.sco := rfl
@[simp] theorem State.setPending_aud : (s.setPending b).aud = s.aud := rfl
@[simp] theorem State.setPending_pmg : (s.setPending b).pmg = s.pmg := rfl
@[simp] theorem State.setPending_lnk : (s.setPending b).lnk = s.lnk := rfl
@[simp] theorem State.setPending_cfl : (s.setPending b).cfl = s.cfl := rfl
@[simp] theorem State.setPending_rch : (s.setPending b).rch = s.rch := rfl
@[simp] theorem State.setPending_mge : (s.setPending b).mge = s.mge := rfl
@[simp] theorem State.setPending_cst : (s.setPending b).cst = s.cst := rfl
@[simp] theorem State.setPending_pending : (s.setPending b).pending = b := rfl
@[simp] theorem State.setPending_turns : (s.setPending b).turns = s.turns := rfl
@[simp] theorem State.setPending_self : s.setPending s.pending = s := rfl
@[simp] theorem State.setPending_setPending (c : List Instr) : (s.setPending b).setPending c = s.setPending c := rfl

end setPending

section setTurns
variable (s : State) (b : List RefreshTurn)

@[simp] theorem State.setTurns_osc : (s.setTurns b).osc = s.osc := rfl
@[simp] theorem State.setTurns_powered : (s.setTurns b).powered = s.powered := rfl
@[simp] theorem State.setTurns_freeIndex : (s.setTurns b).freeIndex = s.freeIndex := rfl
@[simp] theorem State.setTurns_tas : (s.setTurns b).tas = s.tas := rfl
@[simp] theorem State.setTurns_smp : (s.setTurns b).smp = s.smp := rfl
@[simp] theorem State.setTurns_ori : (s.setTurns b).ori = s.ori := rfl
@[simp] theorem State.setTurns_fri : (s.setTurns b).fri = s.fri := rfl
@[simp] theorem State.setTurns_sco : (s.setTurns b).sco = s.sco := rfl
@[simp] theorem State.setTurns_aud : (s.setTurns b).aud = s.aud := rfl
@[simp] theorem State.setTurns_pmg : (s.setTurns b).pmg = s.pmg := rfl
@[simp] theorem State.setTurns_lnk : (s.setTurns b).lnk = s.lnk := rfl
@[simp] theorem State.setTurns_cfl : (s.setTurns b).cfl = s.cfl := rfl
@[simp] theorem State.setTurns_rch : (s.setTurns b).rch = s.rch := rfl
@[simp] theorem State.setTurns_mge : (s.setTurns b).mge = s.mge := rfl
@[simp] theorem State.setTurns_cst : (s.setTurns b).cst = s.cst := rfl
@[simp] theorem State.setTurns_pending : (s.setTurns b).pending = s.pending := rfl
@[simp] theorem State.setTurns_turns : (s.setTurns b).turns = b := rfl
@[simp] theorem State.setTurns_self : s.setTurns s.turns = s := rfl
@[simp] theorem State.setTurns_setTurns (c : List RefreshTurn) : (s.setTurns b).setTurns c = s.setTurns c := rfl

end setTurns

end Sys2Proof.Machine
end

