-- ==== Sys2Proof/Laws/Ops.lean ====
section
/-! SUPPORT. What the shared operations can do, said once: placement and arbitration, replies, reports,
summary bits, dispatch. -/

namespace Sys2Proof.Machine

/-! ## OnlyMessages is a preorder -/

theorem OnlyMessages.refl (s : State) : OnlyMessages s s where
  osc := rfl
  powered := rfl
  freeIndex := rfl
  tas := rfl
  smp := rfl
  ori := rfl
  fri := rfl
  sco := rfl
  pmg := rfl
  cfl := rfl
  cst := rfl
  pending := rfl
  aud := rfl
  captured := List.suffix_rfl
  lnk := rfl
  rch := rfl
  mge := rfl
  turns := rfl
  slots _ _ := ⟨id, id⟩
  sending _ := rfl
  granted h := .inl h
  motion := .inl rfl
  kept _ h _ := h
  reportsKept _ h := .inl h
  drops := Nat.le_refl _
  serials := Nat.le_refl _
  news _ h := .inl h

theorem OnlyMessages.trans {s t u : State} (h : OnlyMessages s t) (k : OnlyMessages t u) :
    OnlyMessages s u where
  osc := k.osc.trans h.osc
  powered := k.powered.trans h.powered
  freeIndex := k.freeIndex.trans h.freeIndex
  tas := k.tas.trans h.tas
  smp := k.smp.trans h.smp
  ori := k.ori.trans h.ori
  fri := k.fri.trans h.fri
  sco := k.sco.trans h.sco
  pmg := k.pmg.trans h.pmg
  cfl := k.cfl.trans h.cfl
  cst := k.cst.trans h.cst
  pending := k.pending.trans h.pending
  aud := by rw [k.aud, h.aud]
  captured := k.captured.trans h.captured
  lnk := by rw [k.lnk, h.lnk]
  rch := by rw [k.rch, h.rch]
  mge := by rw [k.mge, h.mge]
  turns := k.turns.trans h.turns
  slots i x := ⟨fun p => (k.slots i x).1 ((h.slots i x).1 p), fun p => (k.slots i x).2 ((h.slots i x).2 p)⟩
  sending hs := by
    have ht := h.sending hs
    rw [k.sending (by rwa [ht]), ht]
  granted hs := by
    rcases h.granted hs with ht | ⟨i, x, e, hu, hx⟩
    · exact k.granted ht
    · exact .inr ⟨i, x, e, (k.sending (by rw [hu]; exact nofun)).trans hu, (k.slots i x).2 hx⟩
  motion := by
    rcases k.motion with hk | hk
    · rw [hk]; exact h.motion
    · exact .inr hk
  kept x p c := k.kept x (h.kept x p c) c
  reportsKept x p := by
    have hd := h.drops
    have kd := k.drops
    rcases h.reportsKept x p with p | p | p
    · rcases k.reportsKept x p with q | q | q
      · exact .inl q
      · exact .inr (.inl (by omega))
      · by_cases e : s.mge.reportDrops = BitVec.allOnes 16
        · exact .inr (.inr e)
        · have : s.mge.reportDrops.toNat ≠ t.mge.reportDrops.toNat :=
            fun c => e ((BitVec.eq_of_toNat_eq c).trans q)
          exact .inr (.inl (by omega))
    · exact .inr (.inl (by omega))
    · exact .inr (.inr p)
  drops := Nat.le_trans h.drops k.drops
  serials := Nat.le_trans h.serials k.serials
  news x p := by
    have hs := h.serials
    have ks := k.serials
    rcases k.news x p with p | p | ⟨r, rfl, p, q⟩
    · rcases h.news x p with p | p | ⟨r, rfl, p, q⟩
      · exact .inl p
      · exact .inr (.inl p)
      · exact .inr (.inr ⟨r, rfl, p, by omega⟩)
    · exact .inr (.inl p)
    · exact .inr (.inr ⟨r, rfl, by omega, q⟩)

/-! ## Items on their way -/

theorem mem_filterMap_toList {α β : Type} {n : Nat} (f : α → Option β) (v : Vector α n) (b : β) :
    b ∈ v.toList.filterMap f ↔ ∃ i : Fin n, f v[i] = some b := by
  rw [List.mem_filterMap]
  constructor
  · rintro ⟨a, ha, hf⟩
    obtain ⟨i, hi, rfl⟩ := List.getElem_of_mem ha
    exact ⟨⟨i, by simpa using hi⟩, by simpa using hf⟩
  · rintro ⟨i, hf⟩
    exact ⟨v[i], by simp [Vector.getElem_mem], hf⟩

/-- An item on its way is in a slot or at its class's waiting place. -/
theorem mem_items {s : State} {x : Item} :
    x ∈ s.items ↔ (∃ i : Fin 4, s.rch.slots[i].item = some x) ∨ ∃ c, x ∈ s.queued c := by
  rw [State.items]
  simp only [List.mem_append, mem_filterMap_toList]
  constructor
  · rintro ((((h | h) | h) | h) | h)
    exacts [.inl h, .inr ⟨_, h⟩, .inr ⟨_, h⟩, .inr ⟨_, h⟩, .inr ⟨_, h⟩]
  · rintro (h | ⟨c, h⟩)
    · exact .inl (.inl (.inl (.inl h)))
    · cases c <;> simp [h]

theorem mem_outgoing {s : State} {r : Reply} : r ∈ s.outgoing ↔ .reply r ∈ s.items := by
  have hs : ∀ t : TxSlot, t.reply? = some r ↔ t.item = some (.reply r) := by
    intro t; rcases t with _ | (_ | _ | _ | _) | (_ | _ | _ | _) <;> simp [TxSlot.reply?, TxSlot.item]
  rw [State.outgoing, List.mem_append, mem_filterMap_toList, mem_items]
  refine or_congr (exists_congr fun i => hs _) ⟨fun h => ⟨.reply, by simpa [State.queued] using h⟩, ?_⟩
  rintro ⟨c, h⟩
  cases c <;> simp [State.queued] at h ⊢
  exact h

theorem mem_outgoingReports {s : State} {r : Report} : r ∈ s.outgoingReports ↔ .report r ∈ s.items := by
  have hs : ∀ t : TxSlot, t.report? = some r ↔ t.item = some (.report r) := by
    intro t; rcases t with _ | (_ | _ | _ | _) | (_ | _ | _ | _) <;>
      simp [TxSlot.report?, TxSlot.item]
  rw [State.outgoingReports, List.mem_append, mem_filterMap_toList, mem_items]
  refine or_congr (exists_congr fun i => hs _) ⟨fun h => ⟨.report, by simpa [State.queued] using h⟩, ?_⟩
  rintro ⟨c, h⟩
  cases c <;> simp [State.queued] at h ⊢
  exact h

/-- The item a fill may take is the first at its class's waiting place. -/
theorem State.waiting_eq (s : State) (c : ItemClass) : s.waiting c = (s.queued c).head? := by
  cases c
  · simp [State.waiting, State.queued, List.head?_map]
  · simp [State.waiting, State.queued, List.head?_map]
  · unfold State.waiting State.queued
    cases s.rch.pendingMotion <;> rfl
  · simp [State.waiting, State.queued, List.head?_map]

/-- What leaves a waiting place is its first item. -/
theorem State.dropWaiting_queued (s : State) (c d : ItemClass) :
    (s.dropWaiting c).queued d = if d = c then (s.queued c).tail else s.queued d := by
  cases c <;> cases d <;> simp [State.dropWaiting, State.queued]
  cases s.rch.pendingMotion <;> rfl

/-- An item taken from a waiting place leaves the others there. -/
theorem State.mem_queued_of_waiting {s : State} {c : ItemClass} {y : Item} (h : s.waiting c = some y)
    (x : Item) :
    (∃ d, x ∈ s.queued d) ↔ x = y ∨ ∃ d, x ∈ (s.dropWaiting c).queued d := by
  rw [State.waiting_eq] at h
  obtain ⟨l, hl⟩ : ∃ l, s.queued c = y :: l := by
    cases hq : s.queued c with
    | nil => rw [hq] at h; cases h
    | cons z l => rw [hq] at h; cases h; exact ⟨l, rfl⟩
  constructor
  · rintro ⟨d, hd⟩
    by_cases e : d = c
    · subst e
      rw [hl] at hd
      rcases List.mem_cons.mp hd with rfl | hd
      · exact .inl rfl
      · exact .inr ⟨d, by simpa [State.dropWaiting_queued, hl] using hd⟩
    · exact .inr ⟨d, by simpa [State.dropWaiting_queued, e] using hd⟩
  · rintro (rfl | ⟨d, hd⟩)
    · exact ⟨c, by simp [hl]⟩
    · by_cases e : d = c
      · subst e
        exact ⟨d, List.mem_of_mem_tail (by simpa [State.dropWaiting_queued] using hd)⟩
      · exact ⟨d, by simpa [State.dropWaiting_queued, e] using hd⟩

/-! ## Placement -/

theorem emptySlot_empty {r : Rch} {i : Fin 4} (h : r.emptySlot = some i) : r.slots[i] = .empty := by
  simpa using List.find?_some h

/-- A slot set reads as what was set, every other as before. -/
theorem getSlot_set (v : Vector TxSlot 4) (i j : Fin 4) (x : TxSlot) :
    (v.set i x)[j] = if i = j then x else v[j] := by
  by_cases h : i = j
  · subst h; simp
  · have : (i : Nat) ≠ j := fun e => h (Fin.ext e)
    simp [h, this]

/-- What one placement does: the first waiting item of a class with a place left goes into an EMPTY slot. -/
theorem State.placeOne_spec {s t : State} (h : s.placeOne = some t) :
    ∃ (i : Fin 4) (c : ItemClass) (y : Item), s.rch.slots[i] = .empty ∧ s.nextClass = some c ∧ s.waiting c = some y ∧
      t = (s.dropWaiting c).setRch { (s.dropWaiting c).rch with
        slots := s.rch.slots.set i (.occupied y) } := by
  unfold State.placeOne at h
  split at h
  · rename_i i c hi hc
    obtain ⟨y, hy, rfl⟩ := Option.map_eq_some_iff.mp h
    refine ⟨i, c, y, emptySlot_empty hi, hc, hy, ?_⟩
    cases c <;> rfl
  · cases h

/-- A placement loses no item and brings none. -/
theorem State.placeOne_items {s t : State} (h : s.placeOne = some t) (x : Item) :
    x ∈ t.items ↔ x ∈ s.items := by
  obtain ⟨i, c, y, hi, -, hy, rfl⟩ := State.placeOne_spec h
  have hq : ∀ d, ((s.dropWaiting c).setRch { (s.dropWaiting c).rch with
      slots := s.rch.slots.set i (.occupied y) }).queued d = (s.dropWaiting c).queued d := by
    intro d; cases d <;> rfl
  have hslot : (∃ j : Fin 4, (s.rch.slots.set i (.occupied y))[j].item = some x) ↔
      x = y ∨ ∃ j : Fin 4, s.rch.slots[j].item = some x := by
    constructor
    · rintro ⟨j, hj⟩
      rw [getSlot_set] at hj
      split at hj
      · cases hj; exact .inl rfl
      · exact .inr ⟨j, hj⟩
    · rintro (rfl | ⟨j, hj⟩)
      · exact ⟨i, by rw [getSlot_set, if_pos rfl]; rfl⟩
      · refine ⟨j, ?_⟩
        rw [getSlot_set, if_neg]
        · exact hj
        · rintro rfl
          rw [hi] at hj
          cases hj
  rw [mem_items, mem_items, State.mem_queued_of_waiting hy x]
  simp only [hq]
  rw [State.setRch_rch, hslot]
  tauto

theorem State.dropWaiting_captured (s : State) (c : ItemClass) :
    (s.dropWaiting c).aud.captureQueue <:+ s.aud.captureQueue := by
  cases c <;> first | exact List.suffix_rfl | exact List.tail_suffix _

theorem State.placeOne_only {s t : State} (h : s.placeOne = some t) : OnlyMessages s t := by
  have hit := State.placeOne_items h
  obtain ⟨i, c, y, hi, -, hy, rfl⟩ := State.placeOne_spec h
  exact {
    osc := by cases c <;> rfl
    powered := by cases c <;> rfl
    freeIndex := by cases c <;> rfl
    tas := by cases c <;> rfl
    smp := by cases c <;> rfl
    ori := by cases c <;> rfl
    fri := by cases c <;> rfl
    sco := by cases c <;> rfl
    pmg := by cases c <;> rfl
    cfl := by cases c <;> rfl
    cst := by cases c <;> rfl
    pending := by cases c <;> rfl
    aud := by cases c <;> rfl
    captured := s.dropWaiting_captured c
    lnk := by cases c <;> rfl
    rch := by cases c <;> rfl
    mge := by cases c <;> rfl
    turns := by cases c <;> rfl
    slots := fun j x => by
      rw [State.setRch_rch, getSlot_set]
      split
      · rename_i e
        subst e
        rw [hi]
        exact ⟨nofun, nofun⟩
      · exact ⟨id, id⟩
    sending := fun _ => by cases c <;> rfl
    granted := fun hu => .inl (by cases c <;> exact hu)
    motion := by
      cases c
      · exact .inl rfl
      · exact .inl rfl
      · exact .inr rfl
      · exact .inl rfl
    kept := fun x p _ => (hit x).mpr p
    reportsKept := fun x p => .inl ((hit x).mpr p)
    drops := by cases c <;> exact Nat.le_refl _
    serials := by cases c <;> exact Nat.le_refl _
    news := fun x p => .inl ((hit x).mp p) }

theorem State.placeUpTo_only (n : Nat) (s : State) : OnlyMessages s (State.placeUpTo n s) := by
  induction n generalizing s with
  | zero => exact .refl s
  | succ n ih =>
    unfold State.placeUpTo
    split
    · exact .refl s
    · rename_i t h; exact (State.placeOne_only h).trans (ih t)

theorem State.placeUpTo_items (n : Nat) (s : State) (x : Item) :
    x ∈ (State.placeUpTo n s).items ↔ x ∈ s.items := by
  induction n generalizing s with
  | zero => exact Iff.rfl
  | succ n ih =>
    unfold State.placeUpTo
    split
    · exact Iff.rfl
    · rename_i t h; exact (ih t).trans (State.placeOne_items h x)

theorem State.fill_only (s : State) : OnlyMessages s s.fill := by
  unfold State.fill
  split
  · exact State.placeUpTo_only 4 s
  · exact .refl s

/-- A fill loses no item and brings none. -/
theorem State.fill_items (s : State) (x : Item) : x ∈ s.fill.items ↔ x ∈ s.items := by
  unfold State.fill
  split
  · exact State.placeUpTo_items 4 s x
  · exact Iff.rfl

theorem argMin_mem {α : Type} (f : α → Nat) :
    ∀ {l : List α} {a : α}, argMin f l = some a → a ∈ l := by
  intro l
  induction l with
  | nil => intro a h; cases h
  | cons b l ih =>
    intro a h
    unfold argMin at h
    split at h
    · cases h; exact List.mem_cons_self
    · rename_i c hc
      split at h <;> cases h
      · exact List.mem_cons_of_mem _ (ih hc)
      · exact List.mem_cons_self

/-- The element that `argMin` takes has the least value. -/
theorem argMin_le {α : Type} (f : α → Nat) :
    ∀ {l : List α} {a : α}, argMin f l = some a → ∀ b ∈ l, f a ≤ f b := by
  intro l
  induction l with
  | nil => intro a h; cases h
  | cons c l ih =>
    intro a h b hb
    unfold argMin at h
    split at h
    · rename_i hn
      cases h
      rcases List.mem_cons.mp hb with rfl | hb
      · exact Nat.le_refl _
      · cases l with
        | nil => cases hb
        | cons d l =>
          exfalso
          unfold argMin at hn
          split at hn
          · cases hn
          · split at hn <;> cases hn
    · rename_i d hd
      split at h <;> cases h
      · rcases List.mem_cons.mp hb with rfl | hb
        · omega
        · exact ih hd b hb
      · rcases List.mem_cons.mp hb with rfl | hb
        · exact Nat.le_refl _
        · exact Nat.le_trans (by omega) (ih hd b hb)

/-- The winner stands OCCUPIED in its slot. -/
theorem winner_occupied {r : Rch} {i : Fin 4} {item : Item} (h : r.winner = some (i, item)) :
    r.slots[i] = .occupied item := by
  have hm := argMin_mem _ h
  obtain ⟨j, -, hj⟩ := List.mem_filterMap.mp hm
  split at hj
  · rename_i x hx; cases hj; exact hx
  · cases hj

/-- A grant loses no item and brings none. -/
theorem State.grant_items {s : State} {i : Fin 4} {y : Item} (h : s.rch.slots[i] = .occupied y)
    (x : Item) : x ∈ (s.grant i y).items ↔ x ∈ s.items := by
  have hq : ∀ d, (s.grant i y).queued d = s.queued d := by intro d; cases d <;> rfl
  rw [mem_items, mem_items]
  simp only [hq]
  refine or_congr (exists_congr fun j => ?_) Iff.rfl
  show (s.rch.slots.set i (.transmitting y))[j].item = _ ↔ _
  rw [getSlot_set]
  split
  · rename_i e; subst e; rw [h]; rfl
  · rfl

/-- A grant of a free lane to an OCCUPIED slot moves messages only. -/
theorem State.grant_only {s : State} {i : Fin 4} {y : Item} (hu : s.lnk.u0 = .idle)
    (h : s.rch.slots[i] = .occupied y) : OnlyMessages s (s.grant i y) where
  osc := rfl
  powered := rfl
  freeIndex := rfl
  tas := rfl
  smp := rfl
  ori := rfl
  fri := rfl
  sco := rfl
  pmg := rfl
  cfl := rfl
  cst := rfl
  pending := rfl
  aud := rfl
  captured := List.suffix_rfl
  lnk := rfl
  rch := rfl
  mge := rfl
  turns := rfl
  slots j x := by
    show (_ → (s.rch.slots.set i (.transmitting y))[j].item = _) ∧
      (_ → (s.rch.slots.set i (.transmitting y))[j] = _)
    rw [getSlot_set]
    split
    · rename_i e; subst e; rw [h]; exact ⟨id, nofun⟩
    · exact ⟨id, id⟩
  sending hn := absurd hu hn
  granted _ := .inr ⟨i, y, _, rfl, by
    show (s.rch.slots.set i (.transmitting y))[i] = _
    rw [getSlot_set, if_pos rfl]⟩
  motion := .inl rfl
  kept x p _ := (State.grant_items h x).mpr p
  reportsKept x p := .inl ((State.grant_items h x).mpr p)
  drops := Nat.le_refl _
  serials := Nat.le_refl _
  news x p := .inl ((State.grant_items h x).mp p)

/-- What an arbitration does: nothing, or a grant of the free lane to the winner. -/
theorem State.arbitrate_cases (s : State) :
    s.arbitrate = s ∨ ∃ i y, s.lnk.u0 = .idle ∧ s.rch.winner = some (i, y) ∧ s.arbitrate = s.grant i y := by
  unfold State.arbitrate
  split
  · rename_i h
    split
    · rename_i i y hw
      simp only [Bool.and_eq_true, decide_eq_true_eq] at h
      exact .inr ⟨i, y, h.1.2, hw, rfl⟩
    · exact .inl rfl
  · exact .inl rfl

theorem State.arbitrate_only (s : State) : OnlyMessages s s.arbitrate := by
  rcases s.arbitrate_cases with h | ⟨i, y, hu, hw, h⟩ <;> rw [h]
  · exact .refl s
  · exact State.grant_only hu (winner_occupied hw)

/-- An arbitration loses no item and brings none. -/
theorem State.arbitrate_items (s : State) (x : Item) : x ∈ s.arbitrate.items ↔ x ∈ s.items := by
  rcases s.arbitrate_cases with h | ⟨i, y, -, hw, h⟩ <;> rw [h]
  exact State.grant_items (winner_occupied hw) x

/-- A fill and an arbitration move messages only. -/
theorem State.place_only (s : State) : OnlyMessages s s.place :=
  s.fill_only.trans (State.arbitrate_only _)

/-- A fill and an arbitration lose no item and bring none. -/
theorem State.place_items (s : State) (x : Item) : x ∈ s.place.items ↔ x ∈ s.items :=
  (State.arbitrate_items _ x).trans (s.fill_items x)

/-! ## Replies and reports -/

/-- What the Message Engine's queues come to when nothing but they, the serial, the outstanding flag and the
count of dropped reports change: messages have moved, if no reply is lost, a lost report is counted, and what
is new is replies with their serials and reports. -/
theorem OnlyMessages.of_queues {s : State} {m : Mge}
    (hm : m = { s.mge with
      replies := m.replies
      reports := m.reports
      nextSerial := m.nextSerial
      outstanding := m.outstanding
      reportDrops := m.reportDrops })
    (hr : ∀ r ∈ s.mge.replies, r ∈ m.replies)
    (hp : ∀ r ∈ s.mge.reports, r ∈ m.reports ∨ s.mge.reportDrops.toNat < m.reportDrops.toNat ∨
      s.mge.reportDrops = BitVec.allOnes 16)
    (hd : s.mge.reportDrops.toNat ≤ m.reportDrops.toNat) (hs : s.mge.nextSerial ≤ m.nextSerial)
    (hn : ∀ r ∈ m.replies, r ∈ s.mge.replies ∨ s.mge.nextSerial ≤ r.serial ∧ r.serial < m.nextSerial) :
    OnlyMessages s (s.setMge m) := by
  have hk : ∀ x ∈ s.items, x ∈ (s.setMge m).items ∨ x.itemClass = .report ∧
      (s.mge.reportDrops.toNat < m.reportDrops.toNat ∨ s.mge.reportDrops = BitVec.allOnes 16) := by
    intro x hx
    rcases mem_items.mp hx with h | ⟨c, h⟩
    · exact .inl (mem_items.mpr (.inl h))
    · cases c
      · obtain ⟨r, hq, rfl⟩ := List.mem_map.mp h
        exact .inl (mem_items.mpr (.inr ⟨.reply, List.mem_map.mpr ⟨r, hr r hq, rfl⟩⟩))
      · obtain ⟨r, hq, rfl⟩ := List.mem_map.mp h
        rcases hp r hq with h | h
        · exact .inl (mem_items.mpr (.inr ⟨.report, List.mem_map.mpr ⟨r, h, rfl⟩⟩))
        · exact .inr ⟨rfl, h⟩
      · exact .inl (mem_items.mpr (.inr ⟨.motion, h⟩))
      · exact .inl (mem_items.mpr (.inr ⟨.capture, h⟩))
  exact {
    osc := rfl
    powered := rfl
    freeIndex := rfl
    tas := rfl
    smp := rfl
    ori := rfl
    fri := rfl
    sco := rfl
    pmg := rfl
    cfl := rfl
    cst := rfl
    pending := rfl
    aud := rfl
    captured := List.suffix_rfl
    lnk := rfl
    rch := rfl
    mge := hm
    turns := rfl
    slots := fun _ _ => ⟨id, id⟩
    sending := fun _ => rfl
    granted := fun h => .inl h
    motion := .inl rfl
    kept := fun x p c => (hk x p).resolve_right fun h => c h.1
    reportsKept := fun x p => (hk x p).imp id fun h => h.2
    drops := hd
    serials := hs
    news := fun x p => by
      rcases mem_items.mp p with h | ⟨c, h⟩
      · exact .inl (mem_items.mpr (.inl h))
      · cases c
        · obtain ⟨r, hq, rfl⟩ := List.mem_map.mp h
          rcases hn r hq with h | h
          · exact .inl (mem_items.mpr (.inr ⟨.reply, List.mem_map.mpr ⟨r, h, rfl⟩⟩))
          · exact .inr (.inr ⟨r, rfl, h⟩)
        · obtain ⟨r, hq, rfl⟩ := List.mem_map.mp h
          exact .inr (.inl rfl)
        · exact .inl (mem_items.mpr (.inr ⟨.motion, h⟩))
        · exact .inl (mem_items.mpr (.inr ⟨.capture, h⟩)) }

theorem satInc_toNat_le {w : Nat} (c : BitVec w) : c.toNat ≤ (satInc c).toNat := by
  unfold satInc
  split
  · exact Nat.le_refl _
  · rename_i h
    have h1 : c.toNat ≠ 2 ^ w - 1 := fun e => h (BitVec.eq_of_toNat_eq (by simpa using e))
    have h2 := c.isLt
    change c.toNat ≤ (c + BitVec.ofNat w 1).toNat
    rw [BitVec.toNat_add, BitVec.toNat_ofNat]
    by_cases hw : w = 0
    · subst hw; simp at h1 h2; omega
    · have : 1 < 2 ^ w := Nat.one_lt_two_pow hw
      rw [Nat.mod_eq_of_lt this, Nat.mod_eq_of_lt] <;> omega

theorem satInc_toNat_lt {w : Nat} {c : BitVec w} (h : c ≠ BitVec.allOnes w) :
    c.toNat < (satInc c).toNat := by
  unfold satInc
  rw [if_neg h]
  have h1 : c.toNat ≠ 2 ^ w - 1 := fun e => h (BitVec.eq_of_toNat_eq (by simpa using e))
  have h2 := c.isLt
  change c.toNat < (c + BitVec.ofNat w 1).toNat
  rw [BitVec.toNat_add, BitVec.toNat_ofNat]
  by_cases hw : w = 0
  · subst hw; simp at h1 h2; omega
  · have : 1 < 2 ^ w := Nat.one_lt_two_pow hw
    rw [Nat.mod_eq_of_lt this, Nat.mod_eq_of_lt] <;> omega

/-- Room made in the Report Queue and a report added move messages only. -/
theorem State.addReport_only (s : State) (r : Report) (o : Bool) :
    OnlyMessages s (s.setMge { s.mge.makeRoom with
      outstanding := o, reports := s.mge.makeRoom.reports ++ [r] }) := by
  unfold Mge.makeRoom
  split
  · exact .of_queues rfl (fun _ h => h) (fun _ h => .inl (List.mem_append_left _ h)) (Nat.le_refl _)
      (Nat.le_refl _) fun _ h => .inl h
  · refine .of_queues rfl (fun _ h => h) (fun _ h => .inr ?_) (satInc_toNat_le _) (Nat.le_refl _)
      fun _ h => .inl h
    by_cases e : s.mge.reportDrops = BitVec.allOnes 16
    · exact .inr e
    · exact .inl (satInc_toNat_lt e)

/-- Forming a reply moves messages only. -/
theorem State.formReply_only (s : State) (kind tag : Byte) (st : Status) (f : List Byte) :
    OnlyMessages s (s.formReply kind tag st f) := by
  refine .trans (t := s.setMge { s.mge with
    replies := s.mge.replies ++ [⟨s.mge.nextSerial, kind, tag, st, f⟩]
    nextSerial := s.mge.nextSerial + 1 }) (.of_queues rfl (fun _ h => List.mem_append_left _ h)
      (fun _ h => .inl h) (Nat.le_refl _) (Nat.le_succ _) ?_) (State.place_only _)
  intro r h
  rcases List.mem_append.mp h with h | h
  · exact .inl h
  · rw [List.mem_singleton] at h
    subst h
    exact .inr ⟨Nat.le_refl _, Nat.lt_succ_self _⟩

/-- Forming a reply adds it to what is on its way, and nothing else. -/
theorem State.formReply_items (s : State) (kind tag : Byte) (st : Status) (f : List Byte) (x : Item) :
    x ∈ (s.formReply kind tag st f).items ↔
      x ∈ s.items ∨ x = .reply ⟨s.mge.nextSerial, kind, tag, st, f⟩ := by
  refine (State.place_items _ _).trans ?_
  simp only [State.items, State.queued, List.mem_append, List.mem_map, State.setMge_mge, State.setMge_rch,
    State.setMge_aud, List.mem_singleton]
  constructor
  · rintro ((((h | ⟨r, h | rfl, rfl⟩) | h) | h) | h)
    exacts [.inl (.inl (.inl (.inl (.inl h)))), .inl (.inl (.inl (.inl (.inr ⟨r, h, rfl⟩)))), .inr rfl,
      .inl (.inl (.inl (.inr h))), .inl (.inl (.inr h)), .inl (.inr h)]
  · rintro (((((h | ⟨r, h, rfl⟩) | h) | h) | h) | rfl)
    exacts [.inl (.inl (.inl (.inl h))), .inl (.inl (.inl (.inr ⟨r, .inl h, rfl⟩))), .inl (.inl (.inr h)),
      .inl (.inr h), .inr h, .inl (.inl (.inl (.inr ⟨_, .inr rfl, rfl⟩)))]

/-- A reply formed is on its way. -/
theorem State.formReply_answered (s : State) (kind tag : Byte) (st : Status) (f : List Byte) :
    Answered s (s.formReply kind tag st f) kind tag st f :=
  mem_outgoing.mpr ((s.formReply_items kind tag st f _).mpr (.inr rfl))

/-- A report handed over moves messages only. -/
theorem State.handReport_only (s : State) (kind : ReportKind) (f : List Byte) :
    OnlyMessages s (s.handReport kind f) :=
  (s.addReport_only ⟨kind, f⟩ s.mge.makeRoom.outstanding).trans (State.place_only _)

/-- A report handed over is on its way. -/
theorem State.handReport_reported (s : State) (kind : ReportKind) (f : List Byte) :
    Reported (s.handReport kind f) kind f :=
  mem_outgoingReports.mpr
    ((State.place_items _ _).mpr (mem_items.mpr (.inr ⟨.report, by simp [State.queued]⟩)))

theorem State.reportIf_only (s : State) (b : Bool) (kind : ReportKind) (f : List Byte) :
    OnlyMessages s (s.reportIf b kind f) := by
  unfold State.reportIf
  split
  · exact s.handReport_only kind f
  · exact .refl s

theorem State.reportIf_reported (s : State) (kind : ReportKind) (f : List Byte) :
    Reported (s.reportIf true kind f) kind f := s.handReport_reported kind f

/-- Setting summary bits sets them and moves messages only. -/
theorem State.setSummary_only (s : State) (bits : BitVec 8) :
    OnlyMessages (s.withBits bits) (s.setSummary bits) := by
  unfold State.setSummary
  simp only
  split
  · exact ((s.withBits bits).addReport_only _ true).trans (State.place_only _)
  · exact .refl _

theorem State.setSummary_summary (s : State) (bits : BitVec 8) :
    (s.setSummary bits).mge.summary = s.mge.summary ||| bits := by
  rw [(s.setSummary_only bits).mge]; rfl

/-- The Request Queue is no part of what messages move. -/
theorem OnlyMessages.requests {s t : State} (h : OnlyMessages s t) : t.mge.requests = s.mge.requests := by
  rw [h.mge]

/-! ## Dispatch -/

theorem Stands.powered {s : State} {k t : Byte} {ps : List Byte} (h : Stands s k t ps) :
    s.powered = true := h.1

/-- A request that stands at the head is dispatched. -/
theorem State.dispatch_of_stands {s : State} {k tag : Byte} {ps : List Byte} (h : Stands s k tag ps)
    (owner : State → State) : s.dispatch ⟨k, tag, ps⟩ owner = owner s.popRequest := by
  have hb : s.bring ⟨k, tag, ps⟩ = s := by unfold State.bring; rw [if_pos h.2]
  unfold State.dispatch
  rw [hb, if_pos h.2]

/-- The row of an immediate kind whose request stands at the head: its owner's answer becomes the
reply. -/
theorem State.immediate_of_stands {s : State} {k tag : Byte} {ps : List Byte} (h : Stands s k tag ps)
    (owner : List Byte → State → Answer) :
    s.immediate k tag ps owner = .next ((owner ps s.popRequest).reply k tag) := by
  unfold State.immediate State.live
  rw [if_pos h.1]
  exact congrArg _ (State.dispatch_of_stands h _)

/-- The row of a long kind whose request stands at the head. -/
theorem State.long_of_stands {s : State} {k tag : Byte} {ps : List Byte} (h : Stands s k tag ps)
    (owner : List Byte → State → LongAnswer) :
    s.long k tag ps owner = .next ((owner ps s.popRequest).settle k tag) := by
  unfold State.long State.live
  rw [if_pos h.1]
  exact congrArg _ (State.dispatch_of_stands h _)

/-- What an immediate row comes to, once its owner's answer is known: the answer's state but for messages,
and the reply on its way. -/
theorem State.immediate_answers {s x : State} {k tag : Byte} {ps fields : List Byte} {st : Status}
    {owner : List Byte → State → Answer} (h : Stands s k tag ps)
    (ha : owner ps s.popRequest = ⟨st, fields, x⟩) (hx : x.mge.nextSerial = s.mge.nextSerial) :
    ∃ t, s.immediate k tag ps owner = .next t ∧ OnlyMessages x t ∧ Answered s t k tag st fields := by
  refine ⟨x.formReply k tag st fields, ?_, x.formReply_only _ _ _ _, ?_⟩
  · rw [State.immediate_of_stands h, ha]; rfl
  · have := x.formReply_answered k tag st fields
    unfold Answered at this ⊢
    rwa [hx] at this

/-- What a long row comes to when its request is answered at dispatch. -/
theorem State.long_answers {s x : State} {k tag : Byte} {ps fields : List Byte} {st : Status}
    {owner : List Byte → State → LongAnswer} (h : Stands s k tag ps)
    (ha : owner ps s.popRequest = .answered ⟨st, fields, x⟩)
    (hx : x.mge.nextSerial = s.mge.nextSerial) :
    ∃ t, s.long k tag ps owner = .next t ∧ OnlyMessages x t ∧ Answered s t k tag st fields := by
  refine ⟨x.formReply k tag st fields, ?_, x.formReply_only _ _ _ _, ?_⟩
  · rw [State.long_of_stands h, ha]; rfl
  · have := x.formReply_answered k tag st fields
    unfold Answered at this ⊢
    rwa [hx] at this

/-- What a long row comes to when an operation starts: the request joins the in-progress set. -/
theorem State.long_starts {s x : State} {k tag : Byte} {ps : List Byte} {r : Resource}
    {owner : List Byte → State → LongAnswer} (h : Stands s k tag ps)
    (ha : owner ps s.popRequest = .started r x) :
    s.long k tag ps owner =
      .next (x.setMge { x.mge with inProgress := x.mge.inProgress ++ [⟨k, tag, r⟩] }) := by
  rw [State.long_of_stands h, ha]; rfl

end Sys2Proof.Machine
end

