-- ==== Sys2Proof/Laws/Blocks.lean ====
section
/-! SUPPORT. What the operations of the blocks can do, said once: a step, the clocks, replies formed at an
operation's end, the emission cap, the link's entries, an examination of the Playout Queue. -/

namespace Sys2Proof.Machine

/-! ## A step -/

/-- What a step can do: with no command waiting one microsecond passes, else the front command runs. -/
theorem step_cases {s : State} {o : Host.Outcome State Fault Refusal} (h : step s = o) :
    (s.pending = [] ∧ o = .next s.idle) ∨
      ∃ c rest, s.pending = c :: rest ∧ o = exec c (s.setPending rest) := by
  unfold step at h
  split at h
  · exact .inl ⟨‹_›, h.symm⟩
  · exact .inr ⟨_, _, ‹_›, h.symm⟩

/-- On a powered part a row is its effect. -/
theorem State.live_powered {s : State} (h : s.powered = true) (f : State → State) :
    s.live f = .next (f s) := by
  unfold State.live
  rw [if_pos h]

/-- On an unpowered part a row does nothing. -/
theorem State.live_unpowered {s : State} (h : s.powered = false) (f : State → State) :
    s.live f = .next s := by
  unfold State.live
  rw [if_neg (by rw [h]; decide)]

/-! ## Clocks -/

/-- Time that passes moves the two clocks and nothing else. -/
theorem State.advanceTo_eq (s : State) (t : Nat) :
    s.advanceTo t = { s with
      osc := max s.osc t
      tas := { s.tas with
        now := s.tas.now + BitVec.ofNat 48 (max s.osc t / 750 - s.osc / 750) } } := rfl

/-- A time that has come leaves the state as it is. -/
theorem State.advanceTo_past {s : State} {t : Nat} (h : t ≤ s.osc) : s.advanceTo t = s := by
  have e : max s.osc t = s.osc := by omega
  have z : s.tas.now + BitVec.ofNat 48 (s.osc / 750 - s.osc / 750) = s.tas.now := by
    rw [Nat.sub_self]
    exact BitVec.add_zero _
  rw [State.advanceTo_eq, e, z]

/-- Tether Time, awaited, comes exactly to the time awaited when that is not behind it. -/
theorem State.awaitTime_now {s : State} {t : Time} (h : s.tas.now.toNat ≤ t.toNat) :
    (s.awaitTime t).tas.now = t := by
  have ht := t.isLt
  apply BitVec.eq_of_toNat_eq
  show (s.tas.now + BitVec.ofNat 48 (max s.osc _ / 750 - s.osc / 750)).toNat = _
  simp only [us, BitVec.toNat_add, BitVec.toNat_ofNat]
  omega

/-! ## The serials of replies -/

/-- A move that leaves the next serial as it was. -/
def SameSerial (s t : State) : Prop := t.mge.nextSerial = s.mge.nextSerial

theorem State.dropWaiting_serial (s : State) (c : ItemClass) : SameSerial s (s.dropWaiting c) := by
  cases c <;> rfl

theorem State.placeOne_serial {s t : State} (h : s.placeOne = some t) : SameSerial s t := by
  unfold State.placeOne at h
  split at h
  · obtain ⟨item, -, rfl⟩ := Option.map_eq_some_iff.mp h
    exact s.dropWaiting_serial _
  · cases h

theorem State.placeUpTo_serial : ∀ (n : Nat) (s : State), SameSerial s (State.placeUpTo n s)
  | 0, _ => rfl
  | n + 1, s => by
    unfold State.placeUpTo
    split
    · rfl
    · rename_i t ht
      exact (State.placeUpTo_serial n t).trans (State.placeOne_serial ht)

/-- Placement and arbitration form no reply. -/
theorem State.place_serial (s : State) : SameSerial s s.place := by
  have hf : SameSerial s s.fill := by
    unfold State.fill
    split
    · exact State.placeUpTo_serial 4 s
    · rfl
  refine Eq.trans ?_ hf
  unfold State.place State.arbitrate
  split
  · split <;> rfl
  · rfl

theorem Mge.makeRoom_serial (m : Mge) : m.makeRoom.nextSerial = m.nextSerial := by
  unfold Mge.makeRoom
  split <;> rfl

/-- A report takes no serial. -/
theorem State.handReport_serial (s : State) (kind : ReportKind) (f : List Byte) :
    SameSerial s (s.handReport kind f) :=
  (State.place_serial _).trans s.mge.makeRoom_serial

theorem State.reportIf_serial (s : State) (b : Bool) (kind : ReportKind) (f : List Byte) :
    SameSerial s (s.reportIf b kind f) := by
  unfold State.reportIf
  split
  · exact s.handReport_serial kind f
  · rfl

/-- Summary bits take no serial. -/
theorem State.setSummary_serial (s : State) (bits : BitVec 8) : SameSerial s (s.setSummary bits) := by
  unfold State.setSummary
  simp only
  split
  · exact (State.place_serial _).trans (Mge.makeRoom_serial _)
  · rfl

/-! ## The end of operations in progress -/

/-- The requests that an operation's end answers leave the in-progress set; else messages move only. -/
theorem State.finish_only (s : State) (holds : InProgress → Bool) (st : Status)
    (fields : InProgress → State → List Byte) :
    OnlyMessages
      (s.setMge { s.mge with inProgress := s.mge.inProgress.filter fun p => !holds p })
      (s.finish holds st fields) := by
  have h : ∀ (l : List InProgress) (t : State), OnlyMessages t
      (l.foldl (fun t p => t.formReply p.kind p.tag st (fields p t)) t) := by
    intro l
    induction l with
    | nil => exact fun t => .refl t
    | cons p l ih => exact fun t => (t.formReply_only _ _ _ _).trans (ih _)
  exact h _ _

/-- With nothing in progress that the end answers, nothing happens. -/
theorem State.finish_none {s : State} {holds : InProgress → Bool} (st : Status)
    (fields : InProgress → State → List Byte) (h : ∀ p ∈ s.mge.inProgress, holds p = false) :
    s.finish holds st fields = s := by
  have hf : s.mge.inProgress.filter holds = [] :=
    List.filter_eq_nil_iff.mpr fun p hp => by simp [h p hp]
  have hk : (s.mge.inProgress.filter fun p => !holds p) = s.mge.inProgress :=
    List.filter_eq_self.mpr fun p hp => by simp [h p hp]
  unfold State.finish
  rw [hf, hk]
  rfl

/-- The one request that the end answers is answered. -/
theorem State.finish_answered {s : State} {holds : InProgress → Bool} {p : InProgress} (st : Status)
    (fields : InProgress → State → List Byte) (h : s.mge.inProgress.filter holds = [p]) :
    Answered s (s.finish holds st fields) p.kind p.tag st
      (fields p (s.setMge { s.mge with
        inProgress := s.mge.inProgress.filter fun p => !holds p })) := by
  unfold State.finish
  rw [h]
  exact State.formReply_answered _ _ _ _ _

/-! ## The emission cap -/

/-- The cap worked out again touches the panels' applied emission alone. -/
theorem State.updateCap_eq (s : State) :
    s.updateCap = s.setSco { s.sco with
      panels := ⟨{ s.sco.panels.left with applied := min s.sco.panels.left.applied s.emissionCap },
        { s.sco.panels.right with applied := min s.sco.panels.right.applied s.emissionCap }⟩ } := rfl

/-- After the cap is worked out again no applied emission lies above it. -/
theorem State.updateCap_held (s : State) : s.updateCap.capHeld :=
  ⟨Nat.min_le_right _ _, Nat.min_le_right _ _⟩

/-! ## The link's entries -/

/-- Entry to TRAIN changes the link as it says, and moves messages. -/
theorem State.enterTrain_only (s : State) :
    OnlyMessages (s.setLnk { s.lnk with
      state := .train
      limit := some (s.osc + ms 100)
      heldWord := none
      sentRequest := s.lnk.ownRequest
      sentUser := s.lnk.ownUser
      u0 := .abilityWord ⟨true, true, 4, true, s.lnk.ownRequest, s.lnk.ownUser⟩ (s.osc + 192) })
      s.enterTrain := State.fill_only _

/-- The link enters TRAIN if it may, and otherwise stays. -/
theorem State.tryTrain_cases (s : State) :
    (s.lnk.mayTrain = true ∧ s.tryTrain = s.enterTrain) ∨
      (s.lnk.mayTrain = false ∧ s.tryTrain = s) := by
  unfold State.tryTrain
  cases h : s.lnk.mayTrain
  · exact .inr ⟨rfl, rfl⟩
  · exact .inl ⟨rfl, rfl⟩

/-- Entry to RECOVER changes the link as it says, and moves messages. -/
theorem State.enterRecover_only (s : State) (target : LaneRate) (cut : Bool) :
    OnlyMessages (s.setLnk (s.lnk.enterRecover target cut s.osc)) (s.enterRecover target cut) :=
  State.arbitrate_only _

/-- In DOWN nothing is placed and nothing is granted (R156). -/
theorem State.place_down {s : State} (h : s.lnk.state = .down) : s.place = s := by
  have ho : s.laneOpen = false := by simp [State.laneOpen, h]
  have hf : s.fill = s := by unfold State.fill; rw [ho]; rfl
  unfold State.place State.arbitrate
  rw [hf, ho]
  rfl

/-! ## An examination of the Playout Queue -/

/-- An examination discards the late heads in front of the first head that is not late, and ends there or
with the queue emptied (R100). -/
theorem examineQueue_spec (now : Nat) : ∀ q : List AudioBlock,
    ∃ late rest, q = late ++ rest ∧ (examineQueue now q).2 = late.length ∧
      (∀ b ∈ late, b.time.toNat + 2000 < now) ∧
      match rest with
      | [] => (examineQueue now q).1 = .emptied
      | b :: l => (now + 250 < b.time.toNat ∧ (examineQueue now q).1 = .waits (b :: l)) ∨
          (b.time.toNat ≤ now + 250 ∧ now ≤ b.time.toNat + 2000 ∧
            (examineQueue now q).1 = .starts b l)
  | [] => ⟨[], [], rfl, rfl, by simp, rfl⟩
  | b :: l => by
    by_cases h1 : now + 250 < b.time.toNat
    · refine ⟨[], b :: l, rfl, ?_, by simp, .inl ⟨h1, ?_⟩⟩ <;> simp [examineQueue, h1]
    · by_cases h2 : b.time.toNat + 2000 < now
      · obtain ⟨late, rest, hq, hn, hl, hr⟩ := examineQueue_spec now l
        refine ⟨b :: late, rest, by rw [hq]; rfl, ?_, ?_, ?_⟩
        · simp [examineQueue, h1, h2, hn]
        · intro c hc
          rcases List.mem_cons.mp hc with rfl | hc
          · exact h2
          · exact hl c hc
        · have e : (examineQueue now (b :: l)).1 = (examineQueue now l).1 := by
            simp [examineQueue, h1, h2]
          rw [e]
          exact hr
      · refine ⟨[], b :: l, rfl, ?_, by simp, .inr ⟨by omega, by omega, ?_⟩⟩ <;>
          simp [examineQueue, h1, h2]

/-! ## Attenuation -/

/-- The scaled magnitude is rounded down: of the values the search looks through, it is the one that is at most
`m` scaled by −0.5 × `att` dB while the next is above it (R105). -/
theorem scaledFloor_spec (att m k n : Nat) (h : scaledAtLeast att m n = true)
    (g : scaledAtLeast att m (n + 2 ^ k) = false) :
    scaledAtLeast att m (scaledFloor att m k n) = true ∧
      scaledAtLeast att m (scaledFloor att m k n + 1) = false := by
  induction k generalizing n with
  | zero =>
    rw [pow_zero] at g
    exact ⟨h, g⟩
  | succ k ih =>
    rw [scaledFloor]
    split
    · rename_i e
      refine ih _ e ?_
      rwa [Nat.add_assoc, ← Nat.two_mul, ← pow_succ']
    · rename_i e
      exact ih n h (Bool.eq_false_iff.mpr e)

end Sys2Proof.Machine
end

