-- ==== Sys2Proof/Laws/Operands.lean ====
section
/-! SUPPORT. Packing: how many bytes each packed field takes, and that what is packed reads back. -/

namespace Sys2Proof.Machine

@[simp] theorem leBytes_length (k n : Nat) : (leBytes k n).length = k := by
  induction k generalizing n with
  | zero => rfl
  | succ k ih => simp [leBytes, ih]

@[simp] theorem pack8_length (n : Nat) : (pack8 n).length = 1 := leBytes_length 1 n
@[simp] theorem pack16_length (n : Nat) : (pack16 n).length = 2 := leBytes_length 2 n
@[simp] theorem pack32_length (n : Nat) : (pack32 n).length = 4 := leBytes_length 4 n
@[simp] theorem pack48_length (n : Nat) : (pack48 n).length = 6 := leBytes_length 6 n
@[simp] theorem packS16_length (i : Int) : (packS16 i).length = 2 := leBytes_length 2 _
@[simp] theorem packS32_length (i : Int) : (packS32 i).length = 4 := leBytes_length 4 _
@[simp] theorem packFlag_length (b : Bool) : (packFlag b).length = 1 := rfl
@[simp] theorem packTime_length (t : Time) : (packTime t).length = 6 := pack48_length _
@[simp] theorem packCount_length (c : Count) : (packCount c).length = 2 := pack16_length _
@[simp] theorem packCount32_length (c : Count32) : (packCount32 c).length = 4 := pack32_length _

/-- What is packed reads back, modulo its width (R185). -/
theorem leNat_leBytes (k n : Nat) : leNat (leBytes k n) = n % 256 ^ k := by
  induction k generalizing n with
  | zero => simp [leBytes, leNat, Nat.mod_one]
  | succ k ih =>
    simp only [leBytes, leNat, ih, BitVec.toNat_ofNat]
    have e : 256 ^ (k + 1) = 256 * 256 ^ k := by rw [pow_succ, Nat.mul_comm]
    rw [e, Nat.mod_mul]

/-- A field of one byte of a list that has just that byte. -/
@[simp] theorem field_one (b : Byte) : field [b] 0 1 = b.toNat := by simp [field, leNat]

end Sys2Proof.Machine
end

