-- ==== Sys2Proof/Laws/PerInstr.lean ====
section
/-! SUPPORT. One family of laws, one lemma for each command: a well-formed command that is a request's row
has parameters that fit a control frame (R165, 12.2). -/

namespace Sys2Proof.Laws

/-- The parameter bytes of a command that is the dispatch of a request. -/
def requestParams : Instr → Option (List Byte)
  | .powerOnReset => none
  | .storeLoadEnd => none
  | .readTime _ ps => some ps
  | .addAction _ ps => some ps
  | .cancelAction _ ps => some ps
  | .listActions _ ps => some ps
  | .groupTrigger _ ps => some ps
  | .actionExpiry => none
  | .downstreamFrameReception _ => none
  | .requestUnknownKind _ _ ps => some ps
  | .setSchedule _ ps => some ps
  | .setSamplingRate _ ps => some ps
  | .setCalibration _ ps => some ps
  | .setStillness _ ps => some ps
  | .setWear _ ps => some ps
  | .setMotionReporting _ ps => some ps
  | .readSamples _ ps => some ps
  | .readMotionStatus _ ps => some ps
  | .samplingTick => none
  | .sensorReadEnd _ => none
  | .sensorReadTimeout => none
  | .readOrientation _ ps => some ps
  | .setDisplayMode _ ps => some ps
  | .readPictureStatus _ ps => some ps
  | .panelsOn _ ps => some ps
  | .panelsOff _ ps => some ps
  | .panelsShow _ ps => some ps
  | .panelsStandby _ ps => some ps
  | .setEmission _ ps => some ps
  | .setPanelGeometry _ ps => some ps
  | .readScanStatus _ ps => some ps
  | .rampUpEnd _ => none
  | .rampDownEnd _ => none
  | .refreshStart => none
  | .setAttenuation _ ps => some ps
  | .startCapture _ ps => some ps
  | .stopCapture _ ps => some ps
  | .readAudioStatus _ ps => some ps
  | .playoutHeadDue => none
  | .currentBlockEnd => none
  | .captureInputFrame _ _ => none
  | .powerGrant _ ps => some ps
  | .setThrottleRow _ ps => some ps
  | .setPowerPolicy _ ps => some ps
  | .readPowerStatus _ ps => some ps
  | .railScanEnd _ => none
  | .readLinkStatus _ ps => some ps
  | .readLinkCounters _ ps => some ps
  | .setLinkQuality _ ps => some ps
  | .linkRetrain _ ps _ => some ps
  | .linkLoopback _ ps => some ps
  | .d0SignalDetect => none
  | .backoffEnd => none
  | .laneWordLock _ => none
  | .laneLockLoss _ _ => none
  | .hostAbilityWord _ => none
  | .trainingLimitExpiry => none
  | .recoveryLimitExpiry => none
  | .qualityWindowEnd _ _ => none
  | .quietMarker _ => none
  | .wakeMarker => none
  | .loopbackTimerExpiry => none
  | .echoTransmissionComplete => none
  | .abilityWordEnd => none
  | .transmissionComplete => none
  | .setChannelFilter _ ps => some ps
  | .readChannelFilter _ ps => some ps
  | .setReturnPriority _ ps => some ps
  | .readReturnStatus _ ps => some ps
  | .identify _ ps => some ps
  | .readSummary _ ps => some ps
  | .setAttentionEnable _ ps => some ps
  | .setReportEnable _ ps => some ps
  | .functionClearPicture _ ps => some ps
  | .functionClearAudio _ ps => some ps
  | .functionClearMotion _ ps => some ps
  | .functionClearActions _ ps => some ps
  | .functionClearCounters _ ps => some ps
  | .hubReset _ ps => some ps
  | .erasePage _ ps => some ps
  | .programStore _ ps => some ps
  | .eraseEnd => none
  | .programEnd => none
  | .readStore _ ps => some ps
  | .blankCheck _ ps => some ps
  | .setProtectBoundary _ ps => some ps
  | .readStoreMap _ ps => some ps
  | .tetherPowerLoss => none
  | .sensorReadyLineRaised _ => none
  | .d0SignalLoss => none

/-- A well-formed target check is in particular a parameter check. -/
theorem params_of_target {own : Nat} {ps : List Byte} (h : WellFormed.target own ps = true) :
    WellFormed.params ps = true := by
  simp only [WellFormed.target, Bool.and_eq_true] at h
  exact h.1

/-- The parameter check says that the parameters and the 6-byte header fit a payload. -/
theorem params_fit {ps : List Byte} (h : WellFormed.params ps = true) : ps.length + 6 ≤ 24576 :=
  of_decide_eq_true h

/-- What the family states of a command. -/
def ParamsFit.Statement (i : Instr) : Prop :=
  WellFormed i = true → ∀ ps, requestParams i = some ps → ps.length + 6 ≤ 24576

/-- A command that is no request's row. -/
theorem ParamsFit.none {i : Instr} (h : requestParams i = Option.none) : ParamsFit.Statement i :=
  fun _ ps e => by rw [h] at e; cases e

/-- A request's row whose check is the parameter check. -/
theorem ParamsFit.some {i : Instr} {qs : List Byte} (h : requestParams i = Option.some qs)
    (w : WellFormed i = true → WellFormed.params qs = true) : ParamsFit.Statement i :=
  fun hw ps e => by
    rw [h] at e
    cases e
    exact params_fit (w hw)

theorem ParamsFit.powerOnReset :
    ParamsFit.Statement .powerOnReset := ParamsFit.none rfl
theorem ParamsFit.storeLoadEnd :
    ParamsFit.Statement .storeLoadEnd := ParamsFit.none rfl
theorem ParamsFit.readTime (tag : Byte) (ps : List Byte) :
    ParamsFit.Statement (.readTime tag ps) := ParamsFit.some rfl id
theorem ParamsFit.addAction (tag : Byte) (ps : List Byte) :
    ParamsFit.Statement (.addAction tag ps) := ParamsFit.some rfl id
theorem ParamsFit.cancelAction (tag : Byte) (ps : List Byte) :
    ParamsFit.Statement (.cancelAction tag ps) := ParamsFit.some rfl id
theorem ParamsFit.listActions (tag : Byte) (ps : List Byte) :
    ParamsFit.Statement (.listActions tag ps) := ParamsFit.some rfl id
theorem ParamsFit.groupTrigger (tag : Byte) (ps : List Byte) :
    ParamsFit.Statement (.groupTrigger tag ps) := ParamsFit.some rfl id
theorem ParamsFit.actionExpiry :
    ParamsFit.Statement .actionExpiry := ParamsFit.none rfl
theorem ParamsFit.downstreamFrameReception (bytes : List Byte) :
    ParamsFit.Statement (.downstreamFrameReception bytes) := ParamsFit.none rfl
theorem ParamsFit.requestUnknownKind (kind tag : Byte) (ps : List Byte) :
    ParamsFit.Statement (.requestUnknownKind kind tag ps) := ParamsFit.some rfl (fun h => (Bool.and_eq_true _ _ ▸ h).2)
theorem ParamsFit.setSchedule (tag : Byte) (ps : List Byte) :
    ParamsFit.Statement (.setSchedule tag ps) := ParamsFit.some rfl id
theorem ParamsFit.setSamplingRate (tag : Byte) (ps : List Byte) :
    ParamsFit.Statement (.setSamplingRate tag ps) := ParamsFit.some rfl id
theorem ParamsFit.setCalibration (tag : Byte) (ps : List Byte) :
    ParamsFit.Statement (.setCalibration tag ps) := ParamsFit.some rfl id
theorem ParamsFit.setStillness (tag : Byte) (ps : List Byte) :
    ParamsFit.Statement (.setStillness tag ps) := ParamsFit.some rfl id
theorem ParamsFit.setWear (tag : Byte) (ps : List Byte) :
    ParamsFit.Statement (.setWear tag ps) := ParamsFit.some rfl id
theorem ParamsFit.setMotionReporting (tag : Byte) (ps : List Byte) :
    ParamsFit.Statement (.setMotionReporting tag ps) := ParamsFit.some rfl id
theorem ParamsFit.readSamples (tag : Byte) (ps : List Byte) :
    ParamsFit.Statement (.readSamples tag ps) := ParamsFit.some rfl id
theorem ParamsFit.readMotionStatus (tag : Byte) (ps : List Byte) :
    ParamsFit.Statement (.readMotionStatus tag ps) := ParamsFit.some rfl id
theorem ParamsFit.samplingTick :
    ParamsFit.Statement .samplingTick := ParamsFit.none rfl
theorem ParamsFit.sensorReadEnd (word : BitVec 16) :
    ParamsFit.Statement (.sensorReadEnd word) := ParamsFit.none rfl
theorem ParamsFit.sensorReadTimeout :
    ParamsFit.Statement .sensorReadTimeout := ParamsFit.none rfl
theorem ParamsFit.readOrientation (tag : Byte) (ps : List Byte) :
    ParamsFit.Statement (.readOrientation tag ps) := ParamsFit.some rfl id
theorem ParamsFit.setDisplayMode (tag : Byte) (ps : List Byte) :
    ParamsFit.Statement (.setDisplayMode tag ps) := ParamsFit.some rfl id
theorem ParamsFit.readPictureStatus (tag : Byte) (ps : List Byte) :
    ParamsFit.Statement (.readPictureStatus tag ps) := ParamsFit.some rfl id
theorem ParamsFit.panelsOn (tag : Byte) (ps : List Byte) :
    ParamsFit.Statement (.panelsOn tag ps) := ParamsFit.some rfl id
theorem ParamsFit.panelsOff (tag : Byte) (ps : List Byte) :
    ParamsFit.Statement (.panelsOff tag ps) := ParamsFit.some rfl id
theorem ParamsFit.panelsShow (tag : Byte) (ps : List Byte) :
    ParamsFit.Statement (.panelsShow tag ps) := ParamsFit.some rfl id
theorem ParamsFit.panelsStandby (tag : Byte) (ps : List Byte) :
    ParamsFit.Statement (.panelsStandby tag ps) := ParamsFit.some rfl id
theorem ParamsFit.setEmission (tag : Byte) (ps : List Byte) :
    ParamsFit.Statement (.setEmission tag ps) := ParamsFit.some rfl id
theorem ParamsFit.setPanelGeometry (tag : Byte) (ps : List Byte) :
    ParamsFit.Statement (.setPanelGeometry tag ps) := ParamsFit.some rfl id
theorem ParamsFit.readScanStatus (tag : Byte) (ps : List Byte) :
    ParamsFit.Statement (.readScanStatus tag ps) := ParamsFit.some rfl id
theorem ParamsFit.rampUpEnd (panel : Panel) :
    ParamsFit.Statement (.rampUpEnd panel) := ParamsFit.none rfl
theorem ParamsFit.rampDownEnd (panel : Panel) :
    ParamsFit.Statement (.rampDownEnd panel) := ParamsFit.none rfl
theorem ParamsFit.refreshStart :
    ParamsFit.Statement .refreshStart := ParamsFit.none rfl
theorem ParamsFit.setAttenuation (tag : Byte) (ps : List Byte) :
    ParamsFit.Statement (.setAttenuation tag ps) := ParamsFit.some rfl id
theorem ParamsFit.startCapture (tag : Byte) (ps : List Byte) :
    ParamsFit.Statement (.startCapture tag ps) := ParamsFit.some rfl id
theorem ParamsFit.stopCapture (tag : Byte) (ps : List Byte) :
    ParamsFit.Statement (.stopCapture tag ps) := ParamsFit.some rfl id
theorem ParamsFit.readAudioStatus (tag : Byte) (ps : List Byte) :
    ParamsFit.Statement (.readAudioStatus tag ps) := ParamsFit.some rfl id
theorem ParamsFit.playoutHeadDue :
    ParamsFit.Statement .playoutHeadDue := ParamsFit.none rfl
theorem ParamsFit.currentBlockEnd :
    ParamsFit.Statement .currentBlockEnd := ParamsFit.none rfl
theorem ParamsFit.captureInputFrame (first second : BitVec 16) :
    ParamsFit.Statement (.captureInputFrame first second) := ParamsFit.none rfl
theorem ParamsFit.powerGrant (tag : Byte) (ps : List Byte) :
    ParamsFit.Statement (.powerGrant tag ps) := ParamsFit.some rfl id
theorem ParamsFit.setThrottleRow (tag : Byte) (ps : List Byte) :
    ParamsFit.Statement (.setThrottleRow tag ps) := ParamsFit.some rfl id
theorem ParamsFit.setPowerPolicy (tag : Byte) (ps : List Byte) :
    ParamsFit.Statement (.setPowerPolicy tag ps) := ParamsFit.some rfl id
theorem ParamsFit.readPowerStatus (tag : Byte) (ps : List Byte) :
    ParamsFit.Statement (.readPowerStatus tag ps) := ParamsFit.some rfl id
theorem ParamsFit.railScanEnd (codes : RailCodes) :
    ParamsFit.Statement (.railScanEnd codes) := ParamsFit.none rfl
theorem ParamsFit.readLinkStatus (tag : Byte) (ps : List Byte) :
    ParamsFit.Statement (.readLinkStatus tag ps) := ParamsFit.some rfl id
theorem ParamsFit.readLinkCounters (tag : Byte) (ps : List Byte) :
    ParamsFit.Statement (.readLinkCounters tag ps) := ParamsFit.some rfl id
theorem ParamsFit.setLinkQuality (tag : Byte) (ps : List Byte) :
    ParamsFit.Statement (.setLinkQuality tag ps) := ParamsFit.some rfl id
theorem ParamsFit.linkRetrain (tag : Byte) (ps : List Byte) (cut : Bool) :
    ParamsFit.Statement (.linkRetrain tag ps cut) := ParamsFit.some rfl id
theorem ParamsFit.linkLoopback (tag : Byte) (ps : List Byte) :
    ParamsFit.Statement (.linkLoopback tag ps) := ParamsFit.some rfl id
theorem ParamsFit.d0SignalDetect :
    ParamsFit.Statement .d0SignalDetect := ParamsFit.none rfl
theorem ParamsFit.backoffEnd :
    ParamsFit.Statement .backoffEnd := ParamsFit.none rfl
theorem ParamsFit.laneWordLock (lane : Lane) :
    ParamsFit.Statement (.laneWordLock lane) := ParamsFit.none rfl
theorem ParamsFit.laneLockLoss (lane : Lane) (cut : Bool) :
    ParamsFit.Statement (.laneLockLoss lane cut) := ParamsFit.none rfl
theorem ParamsFit.hostAbilityWord (word : HostWord) :
    ParamsFit.Statement (.hostAbilityWord word) := ParamsFit.none rfl
theorem ParamsFit.trainingLimitExpiry :
    ParamsFit.Statement .trainingLimitExpiry := ParamsFit.none rfl
theorem ParamsFit.recoveryLimitExpiry :
    ParamsFit.Statement .recoveryLimitExpiry := ParamsFit.none rfl
theorem ParamsFit.qualityWindowEnd (energies : Energies) (cut : Bool) :
    ParamsFit.Statement (.qualityWindowEnd energies cut) := ParamsFit.none rfl
theorem ParamsFit.quietMarker (cut : Bool) :
    ParamsFit.Statement (.quietMarker cut) := ParamsFit.none rfl
theorem ParamsFit.wakeMarker :
    ParamsFit.Statement .wakeMarker := ParamsFit.none rfl
theorem ParamsFit.loopbackTimerExpiry :
    ParamsFit.Statement .loopbackTimerExpiry := ParamsFit.none rfl
theorem ParamsFit.echoTransmissionComplete :
    ParamsFit.Statement .echoTransmissionComplete := ParamsFit.none rfl
theorem ParamsFit.abilityWordEnd :
    ParamsFit.Statement .abilityWordEnd := ParamsFit.none rfl
theorem ParamsFit.transmissionComplete :
    ParamsFit.Statement .transmissionComplete := ParamsFit.none rfl
theorem ParamsFit.setChannelFilter (tag : Byte) (ps : List Byte) :
    ParamsFit.Statement (.setChannelFilter tag ps) := ParamsFit.some rfl id
theorem ParamsFit.readChannelFilter (tag : Byte) (ps : List Byte) :
    ParamsFit.Statement (.readChannelFilter tag ps) := ParamsFit.some rfl id
theorem ParamsFit.setReturnPriority (tag : Byte) (ps : List Byte) :
    ParamsFit.Statement (.setReturnPriority tag ps) := ParamsFit.some rfl id
theorem ParamsFit.readReturnStatus (tag : Byte) (ps : List Byte) :
    ParamsFit.Statement (.readReturnStatus tag ps) := ParamsFit.some rfl id
theorem ParamsFit.identify (tag : Byte) (ps : List Byte) :
    ParamsFit.Statement (.identify tag ps) := ParamsFit.some rfl id
theorem ParamsFit.readSummary (tag : Byte) (ps : List Byte) :
    ParamsFit.Statement (.readSummary tag ps) := ParamsFit.some rfl id
theorem ParamsFit.setAttentionEnable (tag : Byte) (ps : List Byte) :
    ParamsFit.Statement (.setAttentionEnable tag ps) := ParamsFit.some rfl id
theorem ParamsFit.setReportEnable (tag : Byte) (ps : List Byte) :
    ParamsFit.Statement (.setReportEnable tag ps) := ParamsFit.some rfl id
theorem ParamsFit.functionClearPicture (tag : Byte) (ps : List Byte) :
    ParamsFit.Statement (.functionClearPicture tag ps) := ParamsFit.some rfl params_of_target
theorem ParamsFit.functionClearAudio (tag : Byte) (ps : List Byte) :
    ParamsFit.Statement (.functionClearAudio tag ps) := ParamsFit.some rfl params_of_target
theorem ParamsFit.functionClearMotion (tag : Byte) (ps : List Byte) :
    ParamsFit.Statement (.functionClearMotion tag ps) := ParamsFit.some rfl params_of_target
theorem ParamsFit.functionClearActions (tag : Byte) (ps : List Byte) :
    ParamsFit.Statement (.functionClearActions tag ps) := ParamsFit.some rfl params_of_target
theorem ParamsFit.functionClearCounters (tag : Byte) (ps : List Byte) :
    ParamsFit.Statement (.functionClearCounters tag ps) := ParamsFit.some rfl params_of_target
theorem ParamsFit.hubReset (tag : Byte) (ps : List Byte) :
    ParamsFit.Statement (.hubReset tag ps) := ParamsFit.some rfl id
theorem ParamsFit.erasePage (tag : Byte) (ps : List Byte) :
    ParamsFit.Statement (.erasePage tag ps) := ParamsFit.some rfl id
theorem ParamsFit.programStore (tag : Byte) (ps : List Byte) :
    ParamsFit.Statement (.programStore tag ps) := ParamsFit.some rfl id
theorem ParamsFit.eraseEnd :
    ParamsFit.Statement .eraseEnd := ParamsFit.none rfl
theorem ParamsFit.programEnd :
    ParamsFit.Statement .programEnd := ParamsFit.none rfl
theorem ParamsFit.readStore (tag : Byte) (ps : List Byte) :
    ParamsFit.Statement (.readStore tag ps) := ParamsFit.some rfl id
theorem ParamsFit.blankCheck (tag : Byte) (ps : List Byte) :
    ParamsFit.Statement (.blankCheck tag ps) := ParamsFit.some rfl id
theorem ParamsFit.setProtectBoundary (tag : Byte) (ps : List Byte) :
    ParamsFit.Statement (.setProtectBoundary tag ps) := ParamsFit.some rfl id
theorem ParamsFit.readStoreMap (tag : Byte) (ps : List Byte) :
    ParamsFit.Statement (.readStoreMap tag ps) := ParamsFit.some rfl id
theorem ParamsFit.tetherPowerLoss :
    ParamsFit.Statement .tetherPowerLoss := ParamsFit.none rfl
theorem ParamsFit.sensorReadyLineRaised (device : Device) :
    ParamsFit.Statement (.sensorReadyLineRaised device) := ParamsFit.none rfl
theorem ParamsFit.d0SignalLoss :
    ParamsFit.Statement .d0SignalLoss := ParamsFit.none rfl

end Sys2Proof.Laws
end

