-- ==== Sys2Proof/Laws/Reports.lean ====
section
/-! SUPPORT. That reports formed in one step are all on their way at its end: a full Report Queue drops its
oldest entry, so a report with few reports behind it stays. -/

namespace Sys2Proof.Machine

/-- The report is in a slot, or among the `k` newest of the Report Queue. -/
def State.recent (s : State) (k : Nat) (r : Report) : Prop :=
  (∃ i : Fin 4, s.rch.slots[i].item = some (.report r)) ∨
    r ∈ s.mge.reports.drop (s.mge.reports.length - k)

/-- What is among the `k` newest entries of a list is among those of its tail, or is the head. -/
theorem mem_newest_tail {α : Type} {a r : α} {l : List α} {k : Nat}
    (h : r ∈ (a :: l).drop ((a :: l).length - k)) : r = a ∨ r ∈ l.drop (l.length - k) := by
  rcases Nat.lt_or_ge l.length k with hk | hk
  · have e : (a :: l).length - k = 0 := by simp only [List.length_cons]; omega
    rw [e, List.drop_zero] at h
    rw [show l.length - k = 0 by omega, List.drop_zero]
    exact List.mem_cons.mp h
  · rw [List.length_cons, show l.length + 1 - k = (l.length - k) + 1 by omega, List.drop_succ_cons] at h
    exact .inr h

/-- A recent report is on its way. -/
theorem State.recent.reported {s : State} {k : Nat} {kind : ReportKind} {f : List Byte}
    (h : s.recent k ⟨kind, f⟩) : Reported s kind f := by
  refine mem_outgoingReports.mpr (mem_items.mpr ?_)
  rcases h with h | h
  · exact .inl h
  · exact .inr ⟨.report, List.mem_map.mpr ⟨_, List.mem_of_mem_drop h, rfl⟩⟩

/-- A placement keeps a recent report recent: it may go into a slot. -/
theorem State.placeOne_recent {s t : State} {k : Nat} {r : Report} (h : s.placeOne = some t)
    (hr : s.recent k r) : t.recent k r := by
  obtain ⟨i, c, y, hi, -, hy, rfl⟩ := State.placeOne_spec h
  have keeps : ∀ j : Fin 4, s.rch.slots[j].item = some (.report r) →
      ∃ j : Fin 4, (s.rch.slots.set i (.occupied y))[j].item = some (.report r) := by
    intro j hj
    refine ⟨j, ?_⟩
    rw [getSlot_set, if_neg]
    · exact hj
    · rintro rfl
      rw [hi] at hj
      cases hj
  have same : c ≠ .report → (s.dropWaiting c).mge.reports = s.mge.reports := by
    cases c <;> first | (intro; rfl) | exact fun n => absurd rfl n
  rcases hr with ⟨j, hj⟩ | hr
  · exact .inl (keeps j hj)
  · by_cases hc : c = .report
    · subst hc
      cases hq : s.mge.reports with
      | nil => rw [hq] at hr; simp at hr
      | cons a l =>
        rw [hq] at hr
        rcases mem_newest_tail hr with rfl | hr
        · refine .inl ⟨i, ?_⟩
          simp only [State.waiting, hq, List.head?_cons, Option.map_some, Option.some.injEq] at hy
          subst hy
          simp [TxSlot.item]
        · exact .inr (by simpa [State.dropWaiting, hq] using hr)
    · refine .inr ?_
      show r ∈ List.drop ((s.dropWaiting c).mge.reports.length - k) (s.dropWaiting c).mge.reports
      rw [same hc]
      exact hr

theorem State.placeUpTo_recent {k : Nat} {r : Report} (n : Nat) (s : State) (h : s.recent k r) :
    (State.placeUpTo n s).recent k r := by
  induction n generalizing s with
  | zero => exact h
  | succ n ih =>
    unfold State.placeUpTo
    split
    · exact h
    · exact ih _ (State.placeOne_recent ‹_› h)

/-- A fill and an arbitration keep a recent report recent. -/
theorem State.place_recent {s : State} {k : Nat} {r : Report} (h : s.recent k r) : s.place.recent k r := by
  have hf : s.fill.recent k r := by
    unfold State.fill
    split
    · exact State.placeUpTo_recent 4 s h
    · exact h
  unfold State.place
  rcases s.fill.arbitrate_cases with e | ⟨i, y, -, hw, e⟩ <;> rw [e]
  · exact hf
  · rcases hf with ⟨j, hj⟩ | hf
    · refine .inl ⟨j, ?_⟩
      show (s.fill.rch.slots.set i (.transmitting y))[j].item = _
      rw [getSlot_set]
      split
      · rename_i e; subst e; rw [winner_occupied hw] at hj; exact hj
      · exact hj
    · exact .inr hf

/-- A report that joins the queue leaves at least one more of the newest before it. -/
theorem State.joins_recent {s : State} {k : Nat} {r x : Report} {m : Mge} (h : s.recent k r) (hk : k < 8)
    (hm : m.reports = s.mge.makeRoom.reports ++ [x]) : (s.setMge m).recent (k + 1) r := by
  rcases h with h | h
  · exact .inl h
  · refine .inr ?_
    show r ∈ m.reports.drop (m.reports.length - (k + 1))
    have hroom : r ∈ s.mge.makeRoom.reports.drop (s.mge.makeRoom.reports.length - k) := by
      unfold Mge.makeRoom
      split
      · exact h
      · rename_i hl
        cases hq : s.mge.reports with
        | nil => rw [hq] at hl; simp at hl
        | cons a l =>
          rw [hq] at h hl
          simp only [List.length_cons] at hl
          rw [List.length_cons, show l.length + 1 - k = (l.length - k) + 1 by omega,
            List.drop_succ_cons] at h
          exact h
    rw [hm, List.length_append, List.length_singleton,
      show ∀ n : Nat, n + 1 - (k + 1) = n - k by omega, List.drop_append]
    exact List.mem_append_left _ hroom

/-- A report handed over is recent, and each recent report before it stays on its way. -/
theorem State.handReport_recent {s : State} {k : Nat} {r : Report} (h : s.recent k r) (hk : k < 8)
    (kind : ReportKind) (f : List Byte) : (s.handReport kind f).recent (k + 1) r :=
  State.place_recent (State.joins_recent h hk rfl)

theorem State.handReport_new (s : State) (kind : ReportKind) (f : List Byte) :
    (s.handReport kind f).recent 1 ⟨kind, f⟩ := by
  refine State.place_recent (.inr ?_)
  simp

theorem State.recent.mono {s : State} {k n : Nat} {r : Report} (h : s.recent k r) (hn : k ≤ n) :
    s.recent n r := by
  rcases h with h | h
  · exact .inl h
  · exact .inr ((List.drop_sublist_drop_left _ (by omega)).subset h)

theorem State.reportIf_recent {s : State} {k : Nat} {r : Report} (h : s.recent k r) (hk : k < 8) (b : Bool)
    (kind : ReportKind) (f : List Byte) : (s.reportIf b kind f).recent (k + 1) r := by
  unfold State.reportIf
  split
  · exact State.handReport_recent h hk kind f
  · exact h.mono (Nat.le_succ k)

/-- Setting summary bits forms at most one report. -/
theorem State.setSummary_recent {s : State} {k : Nat} {r : Report} (h : s.recent k r) (hk : k < 8)
    (bits : BitVec 8) : (s.setSummary bits).recent (k + 1) r := by
  unfold State.setSummary
  simp only
  split
  · exact State.place_recent (State.joins_recent (s := s.withBits bits) h hk rfl)
  · exact h.mono (Nat.le_succ k)

end Sys2Proof.Machine
end

