-- ==== Sys2Proof/Laws/Store.lean ====
section
/-! SUPPORT. The Calibration Store's memory: reading after writing, the canonical form that every
operation on it keeps, and the check word of a page of which one byte is altered. -/

namespace Sys2Proof.Machine

/-! ## Read after write -/

theorem storeRead_of_lt : ∀ {m : StoreMemory} {lo a : Nat}, storeWfFrom lo m = true → a < lo →
    storeRead m a = blankByte := by
  intro m
  induction m with
  | nil => intro _ _ _ _; rfl
  | cons c m ih =>
    intro lo a h ha
    obtain ⟨k, v⟩ := c
    simp only [storeWfFrom, Bool.and_eq_true, decide_eq_true_eq] at h
    have : k ≠ a := by omega
    simp only [storeRead, this, if_false]
    exact ih h.2 (by omega)

/-- The byte written reads back. -/
theorem storeRead_storeWrite_same : ∀ {m : StoreMemory} {lo : Nat} (a : Nat) (b : Byte),
    storeWfFrom lo m = true → storeRead (storeWrite m a b) a = b := by
  intro m
  induction m with
  | nil =>
    intro lo a b _
    by_cases hb : b = blankByte <;> simp [storeWrite, storeRead, hb]
  | cons c m ih =>
    intro lo a b h
    obtain ⟨k, v⟩ := c
    simp only [storeWfFrom, Bool.and_eq_true, decide_eq_true_eq] at h
    unfold storeWrite
    by_cases hk : k < a
    · simp only [hk, if_true, storeRead, show k ≠ a by omega, if_false]
      exact ih a b h.2
    · simp only [hk, if_false]
      by_cases hb : b = blankByte
      · simp only [hb, if_true]
        split
        · exact storeRead_of_lt h.2 (by omega)
        · simp only [storeRead, show k ≠ a by omega, if_false]
          exact storeRead_of_lt h.2 (by omega)
      · simp [hb, storeRead]

/-- Every other byte reads as before. -/
theorem storeRead_storeWrite_other : ∀ (m : StoreMemory) (a c : Nat) (b : Byte), c ≠ a →
    storeRead (storeWrite m a b) c = storeRead m c := by
  intro m
  induction m with
  | nil =>
    intro a c b h
    by_cases hb : b = blankByte <;> simp [storeWrite, storeRead, hb, Ne.symm h]
  | cons d m ih =>
    intro a c b h
    obtain ⟨k, v⟩ := d
    unfold storeWrite
    by_cases hk : k < a
    · simp only [hk, if_true, storeRead]
      rw [ih a c b h]
    · simp only [hk, if_false]
      by_cases hka : k = a
      · have : k ≠ c := by omega
        by_cases hb : b = blankByte <;> simp [hb, hka, storeRead, Ne.symm h]
      · by_cases hb : b = blankByte <;> simp [hb, hka, storeRead, Ne.symm h]

/-- A run of bytes written leaves every byte outside it as it was. -/
theorem storeRead_storeWriteAll_other : ∀ (bs : List Byte) (m : StoreMemory) (a c : Nat),
    c < a ∨ a + bs.length ≤ c → storeRead (storeWriteAll m a bs) c = storeRead m c := by
  intro bs
  induction bs with
  | nil => intro _ _ _ _; rfl
  | cons b bs ih =>
    intro m a c h
    simp only [List.length_cons] at h
    unfold storeWriteAll
    rw [ih _ _ _ (by omega), storeRead_storeWrite_other _ _ _ _ (by omega)]

/-! ## The canonical form -/

theorem storeWfFrom_mono : ∀ {m : StoreMemory} {lo lo' : Nat}, lo' ≤ lo → storeWfFrom lo m = true →
    storeWfFrom lo' m = true := by
  intro m lo lo' h hw
  cases m with
  | nil => rfl
  | cons c m =>
    simp only [storeWfFrom, Bool.and_eq_true, decide_eq_true_eq] at hw ⊢
    exact ⟨⟨⟨by omega, hw.1.1.2⟩, hw.1.2⟩, hw.2⟩

theorem storeWfFrom_write : ∀ {m : StoreMemory} {lo : Nat} (a : Nat) (b : Byte), lo ≤ a →
    a < 8 * pageSize → storeWfFrom lo m = true → storeWfFrom lo (storeWrite m a b) = true := by
  intro m
  induction m with
  | nil =>
    intro lo a b hl ha _
    by_cases hb : b = blankByte <;> simp [storeWrite, storeWfFrom, hb, hl, ha]
  | cons d m ih =>
    intro lo a b hl ha h
    obtain ⟨k, v⟩ := d
    have h' := h
    simp only [storeWfFrom, Bool.and_eq_true, decide_eq_true_eq] at h
    unfold storeWrite
    by_cases hk : k < a
    · simp only [hk, if_true, storeWfFrom, Bool.and_eq_true, decide_eq_true_eq]
      exact ⟨h.1, ih a b (by omega) ha h.2⟩
    · simp only [hk, if_false]
      by_cases hka : k = a
      · by_cases hb : b = blankByte
        · simp only [hb, hka, if_true]
          exact storeWfFrom_mono (by omega) h.2
        · simp only [hb, hka, if_true, if_false, storeWfFrom, Bool.and_eq_true, decide_eq_true_eq]
          exact ⟨⟨⟨hl, ha⟩, hb⟩, hka ▸ h.2⟩
      · by_cases hb : b = blankByte
        · simpa only [hb, hka, if_true, if_false] using h'
        · simp only [hb, hka, if_false, storeWfFrom, Bool.and_eq_true, decide_eq_true_eq]
          exact ⟨⟨⟨hl, ha⟩, hb⟩, ⟨⟨by omega, h.1.1.2⟩, h.1.2⟩, h.2⟩

/-- A byte written inside the eight pages keeps the form. -/
theorem storeWf_write {m : StoreMemory} (a : Nat) (b : Byte) (ha : a < 8 * pageSize)
    (h : storeWf m = true) : storeWf (storeWrite m a b) = true :=
  storeWfFrom_write a b (Nat.zero_le _) ha h

/-- A run of bytes written inside the eight pages keeps the form. -/
theorem storeWf_writeAll : ∀ (bs : List Byte) {m : StoreMemory} (a : Nat),
    a + bs.length ≤ 8 * pageSize → storeWf m = true → storeWf (storeWriteAll m a bs) = true := by
  intro bs
  induction bs with
  | nil => intro _ _ _ h; exact h
  | cons b bs ih =>
    intro m a ha h
    simp only [List.length_cons] at ha
    exact ih (a + 1) (by omega) (storeWf_write a b (by omega) h)

theorem storeWfFrom_filter (p : Host.Cell → Bool) : ∀ {m : StoreMemory} {lo : Nat},
    storeWfFrom lo m = true → storeWfFrom lo (m.filter p) = true := by
  intro m
  induction m with
  | nil => intro _ _; rfl
  | cons d m ih =>
    intro lo h
    obtain ⟨k, v⟩ := d
    simp only [storeWfFrom, Bool.and_eq_true, decide_eq_true_eq] at h
    by_cases hp : p (k, v) = true
    · rw [List.filter_cons_of_pos hp]
      simp only [storeWfFrom, Bool.and_eq_true, decide_eq_true_eq]
      exact ⟨h.1, ih h.2⟩
    · rw [List.filter_cons_of_neg hp]
      exact storeWfFrom_mono (by omega) (ih h.2)

/-- An erase keeps the form. -/
theorem storeWf_erase {m : StoreMemory} (page : Nat) (h : storeWf m = true) :
    storeWf (storeErase m page) = true := storeWfFrom_filter _ h

/-- An erased page reads 0xFF, and every other page as before. -/
theorem storeRead_erase : ∀ (m : StoreMemory) (page a : Nat),
    storeRead (storeErase m page) a = if a / pageSize = page then blankByte else storeRead m a := by
  intro m page a
  induction m with
  | nil => simp [storeErase, storeRead]
  | cons d m ih =>
    obtain ⟨k, v⟩ := d
    unfold storeErase at ih ⊢
    by_cases hk : k / pageSize = page
    · rw [List.filter_cons_of_neg (by simpa using hk), ih]
      by_cases ha : a / pageSize = page
      · simp [ha]
      · have : k ≠ a := fun e => ha (e ▸ hk)
        simp [ha, storeRead, this]
    · rw [List.filter_cons_of_pos (by simpa using hk)]
      simp only [storeRead]
      by_cases hka : k = a
      · subst hka; simp [hk]
      · simp only [hka, if_false, ih]

/-- The store after reset has the form. -/
theorem storeWf_reset : storeWf State.reset.cst.array = true := rfl

/-! ## A page with one byte altered (R177, R180) -/

theorem sum_set : ∀ (l : List Byte) (i : Nat) (b : Byte) (h : i < l.length),
    ((l.set i b).map BitVec.toNat).sum + l[i].toNat = (l.map BitVec.toNat).sum + b.toNat
  | c :: l, 0, b, _ => by simp; omega
  | c :: l, i + 1, b, h => by
    have := sum_set l i b (by simpa using h)
    simp only [List.set_cons_succ, List.map_cons, List.sum_cons, List.getElem_cons_succ]
    omega

/-- The two bytes of a check word are read apart. -/
theorem field_two {bs : List Byte} {k : Nat} (h : k + 2 ≤ bs.length) :
    field bs k 2 = bs[k].toNat + 256 * bs[k + 1].toNat := by
  rw [field, List.drop_eq_getElem_cons (i := k) (by omega), List.drop_eq_getElem_cons (i := k + 1) (by omega)]
  simp only [List.take_succ_cons, List.take_zero, leNat, Nat.mul_zero, Nat.add_zero]

/-- A byte altered in a valid page leaves the page invalid: it moves the sum or the check word, not both. -/
theorem bytesValid_set {bs : List Byte} {i : Nat} {b : Byte} (hl : bs.length = pageSize) (hi : i < bs.length)
    (hb : b ≠ bs[i]) (hv : bytesValid bs = true) : bytesValid (bs.set i b) = false := by
  have hne : b.toNat ≠ bs[i].toNat := fun e => hb (BitVec.eq_of_toNat_eq e)
  have l1 := b.isLt
  have l2 := bs[i].isLt
  have hf := of_decide_eq_true (Bool.and_eq_true_iff.mp hv).1
  rw [pageSize] at hl
  refine Bool.and_eq_false_iff.mpr (.inl (decide_eq_false ?_))
  rw [byteSum] at hf ⊢
  rw [field_two (by omega)] at hf
  rw [field_two (by rw [List.length_set]; omega)]
  by_cases hr : i < 1022
  · have ht : (bs.set i b).take 1022 = (bs.take 1022).set i b := by rw [List.take_set]
    have hs := sum_set (bs.take 1022) i b (by rw [List.length_take]; omega)
    rw [List.getElem_take] at hs
    rw [ht, List.getElem_set_ne (by omega), List.getElem_set_ne (by omega)]
    omega
  · rw [List.take_set_of_le (by omega)]
    by_cases h2 : i = 1022
    · subst h2
      rw [List.getElem_set_self, List.getElem_set_ne (by omega)]
      omega
    · have h3 : i = 1023 := by omega
      subst h3
      rw [List.getElem_set_ne (by omega), List.getElem_set_self]
      change b.toNat ≠ bs[1022 + 1].toNat at hne
      omega

/-- A page after one of its bytes is written. -/
theorem pageBytes_storeWrite {m : StoreMemory} {page i : Nat} (b : Byte) (hw : storeWf m = true) :
    pageBytes (storeWrite m (page * pageSize + i) b) page = (pageBytes m page).set i b := by
  apply List.ext_getElem
  · simp [pageBytes, storeBytes]
  · intro n h1 h2
    simp only [pageBytes, storeBytes, List.getElem_map, List.getElem_range, List.getElem_set]
    split
    · subst_vars; exact storeRead_storeWrite_same _ _ hw
    · exact storeRead_storeWrite_other _ _ _ _ (by omega)

/-- Free bytes written inside the eight pages keep the form. -/
theorem State.scramble_wf : ∀ (n a : Nat) {s : State}, a + n ≤ 8 * pageSize → storeWf s.cst.array = true →
    storeWf (s.scramble a n).cst.array = true
  | 0, _, _, _, h => h
  | n + 1, a, _, ha, h => State.scramble_wf n (a + 1) (by omega) (storeWf_write a _ (by omega) h)

/-- Free bytes written leave every byte outside their run as it was. -/
theorem State.scramble_other : ∀ (n a c : Nat) (s : State), c < a ∨ a + n ≤ c →
    storeRead (s.scramble a n).cst.array c = storeRead s.cst.array c
  | 0, _, _, _, _ => rfl
  | n + 1, a, c, _, h =>
    (State.scramble_other n (a + 1) c _ (by omega)).trans (storeRead_storeWrite_other _ _ _ _ (by omega))

/-- An altered byte differs from the one it stands for. -/
theorem altered_ne (b f : Byte) : b + 1 + f % 255 ≠ b := by
  intro h
  have := congrArg BitVec.toNat h
  have hb := b.isLt
  have hf : (f % 255).toNat < 255 := by
    rw [BitVec.toNat_umod]
    exact Nat.mod_lt _ (by decide)
  have h1 : (1 : Byte).toNat = 1 := rfl
  simp only [BitVec.toNat_add, h1] at this
  omega

/-- A valid page is not valid with its byte at an address altered. -/
theorem State.alter_fails {s : State} {page i : Nat} (hw : storeWf s.cst.array = true) (hi : i < pageSize)
    (hv : bytesValid (pageBytes s.cst.array page) = true) :
    bytesValid (pageBytes (s.alter (page * pageSize + i)).cst.array page) = false := by
  have hl : (pageBytes s.cst.array page).length = pageSize := by simp [pageBytes, storeBytes]
  refine (congrArg bytesValid (pageBytes_storeWrite _ hw)).trans (bytesValid_set hl (by omega) ?_ hv)
  simp only [pageBytes, storeBytes, List.getElem_map, List.getElem_range]
  exact altered_ne _ _

end Sys2Proof.Machine
end

