-- ==== Sys2Proof/Tests/Slice0.lean ====
section
/-! SUPPORT. Tests: the well-formedness checks refuse what they must, the spec's worked figures, and for every
obligation with hypotheses a witness of them. Expected values are the spec's, by the section named. -/

namespace Sys2Proof.Tests

open Sys2Proof Sys2Proof.Machine

-- The evaluations below run one after another: side by side they take a thread, and its stack, each.
set_option Elab.async false

/-! ## States the tests are made on -/

/-- The state after reset with one request at the head of the Request Queue. -/
def asked (kind tag : Byte) (ps : List Byte) : State :=
  State.reset.setMge { Mge.reset with requests := [⟨kind, tag, ps⟩], admitted := 1 }

/-- Every request stands in the state made for it. -/
theorem stands_asked (kind tag : Byte) (ps : List Byte) : Stands (asked kind tag ps) kind tag ps := ⟨rfl, rfl⟩

/-- The state a command leads to; the state after reset where it stops. -/
def after : Host.Outcome State Fault Refusal → State
  | .next t => t
  | .fault _ => State.reset
  | .refused _ => State.reset

/-- A state with another link. -/
def linked (l : Lnk) : State := State.reset.setLnk l

def fullWord : HostWord := ⟨true, true, 4, true, 56, 7⟩

def upLink : Lnk :=
  { Lnk.reset with
    state := .up, rate := some .full, loaded := true, d0Signal := true, partner := some fullWord
    active := Vector.replicate 4 true, locked := Vector.replicate 4 true
    grades := Vector.replicate 4 7, windowEnd := some 384000 }

/-- An entry that sends every channel to a destination. -/
def catchAll (d : Destination) : FilterEntry := ⟨true, 0, 0, d, 0⟩

/-- A link in UP under a filter whose first entry goes to a destination. -/
def receiving (d : Destination) (admitted : Nat) : State :=
  ((linked upLink).setCfl { Cfl.reset with
    entries := Vector.replicate 8 (catchAll d) }).setMge { Mge.reset with admitted := admitted }

def panelAt (st : PanelState) : PanelCtl := { PanelCtl.reset with state := st }

def panels (l r : PanelState) (s : State) : State :=
  s.setSco { s.sco with panels := ⟨panelAt l, panelAt r⟩ }

def aReply (n : Nat) : Item := .reply ⟨n, 0x70, 0, .done, []⟩

def aReport : Item := .report ⟨.link, []⟩

def aMarker (id : Byte) (t : Trigger) : Action := ⟨id, t, .marker, []⟩

/-- A table of `n` entries with ids 0 to n − 1. -/
def someMarkers (n : Nat) : List Action :=
  (List.range n).map fun k => aMarker (BitVec.ofNat 8 k) (.grouped 7)

/-! ## Well-formedness -/

theorem test_wf_params_too_long : WellFormed (.readTime 0 (List.replicate 24571 0)) = false := by
  simp only [WellFormed, WellFormed.params, List.length_replicate, maxPayload]
  decide

theorem test_wf_params_longest : WellFormed (.readTime 0 (List.replicate 24570 0)) = true := by
  simp only [WellFormed, WellFormed.params, List.length_replicate, maxPayload]
  decide

theorem test_wf_unknown_kind : WellFormed (.requestUnknownKind 0x10 0 []) = false := by decide

theorem test_wf_function_clear_target : WellFormed (.functionClearPicture 0 [2]) = false := by decide

/-- A reception goes no further than the length field, here 1 byte on channel 0, allows for. -/
theorem test_wf_reception_too_long :
    WellFormed (.downstreamFrameReception [0x00, 0x10, 0, 0, 1, 2, 3, 4, 5, 6]) = false := by decide

/-- A reception whose length field is 0 ends with its header. -/
theorem test_wf_reception_bad_length :
    WellFormed (.downstreamFrameReception [0x00, 0x00, 0, 0, 1]) = false := by decide

/-- The table gives no row any bits, so no word spells a command. -/
theorem test_decode_none (n w : Nat) : decodeTableWord n w = none := rfl

/-! ## The spec's worked figures -/

/-- 8.5, the table of R139. -/
theorem test_grades :
    gradeAfter QualitySettings.default 4 30 = 5 ∧ gradeAfter QualitySettings.default 5 27 = 6 ∧
      gradeAfter QualitySettings.default 6 70 = 2 ∧ gradeAfter QualitySettings.default 2 62 = 2 ∧
      gradeAfter QualitySettings.default 2 58 = 3 := by decide

/-- 5.3.1, cases 1 and 2: the late shift at 90 Hz, gh = gv = 64. -/
theorem test_late_shift :
    lateShift ⟨.hz90, 64, 64⟩ ⟨5120, 5120, 1500⟩ 10000000 (.valid 16000000 0 9999700 1600 0) =
        ⟨35, 0, false, false, false⟩ ∧
      lateShift ⟨.hz90, 64, 64⟩ ⟨5120, 5120, 1500⟩ 10051111
        (.valid 30400000 (-6400000) 10050700 1600 (-320)) = ⟨53, -11, false, false, false⟩ := by
  decide +kernel

/-- 5.3.1, case 3: an exact half rounds away from zero, and the guard band clamps it. -/
theorem test_late_shift_clamped :
    pixels (-153600000000) = -38 ∧ clampInt (-32) 32 (pixels (-153600000000)) = -32 := by decide +kernel

/-- 3.8, sequence 4991: 1600 for 1000 µs adds 1 600 000 to yaw. -/
theorem test_integrate_yaw :
    (Ori.integrate { Ori.reset with yaw := 1008000000, previousTime := some 9989700 }
      ⟨4991, 9990700, 0, { PerChannel.const none with gz := some ⟨1600, false, false⟩ }⟩ false).yaw =
      1009600000 := by decide +kernel

/-- 3.8, sequence 5002: an interval of 41 000 µs is clamped to 10 000 and counted. -/
theorem test_integrate_clamps :
    let o := Ori.integrate { Ori.reset with pitch := 4291447296, previousTime := some 10000700 }
      ⟨5002, 10041700, 0, { PerChannel.const none with gx := some ⟨-320, false, false⟩ }⟩ false
    o.pitch = 4288247296 ∧ o.intervalClamps = 1 := by decide +kernel

/-- 7.10, W5: 12 500 mV and 1072 mA are 13 400 mW. -/
theorem test_scan_power : railPower ⟨1250, 1072, 0, 0, 0, 0, 0, 0⟩ = 13400 := by decide

/-- 7.10, W2 and W6: above the contract ps rises; two windows below the band lower it by one. -/
theorem test_power_stage :
    (Pmg.judgePower { Pmg.reset with contract := 14000, lastAverage := 15000 }).ps = 1 ∧
      (Pmg.judgePower { Pmg.reset with contract := 14000, lastAverage := 13400, ps := 2 }).ps = 2 ∧
      (Pmg.judgePower { Pmg.reset with contract := 14000, lastAverage := 13400, ps := 2, below := 1 }).ps
        = 1 ∧
      (Pmg.judgePower { Pmg.reset with contract := 14000, lastAverage := 13900, ps := 2, below := 1 }).below
        = 0 := by decide

/-- R116: a grant of 8 gives a contract of 2000 mW. -/
theorem test_power_grant : (powerGrant [3] (asked 0x58 0 [3])).state.pmg.contract = 2000 := by decide +kernel

/-- The usual check value of this CRC-32, for the ASCII digits 1 to 9 (PRESUMED: it is not in the spec). -/
theorem test_crc : crc32 [0x31, 0x32, 0x33, 0x34, 0x35, 0x36, 0x37, 0x38, 0x39] = 0xCBF43926 := by
  decide +kernel

/-- R100: 250 µs early starts, 251 µs waits, 2000 µs late starts, 2001 µs is discarded. -/
theorem test_examination :
    (examineQueue 10000 [⟨10250, 48, []⟩]).1 = .starts ⟨10250, 48, []⟩ [] ∧
      (examineQueue 10000 [⟨10251, 48, []⟩]).1 = .waits [⟨10251, 48, []⟩] ∧
      (examineQueue 10000 [⟨8000, 48, []⟩]).1 = .starts ⟨8000, 48, []⟩ [] ∧
      examineQueue 10000 [⟨7999, 48, []⟩] = (.emptied, 1) := by decide +kernel

/-- 8.9, the recovery: three locked lanes and a figure of 4 give D0 and D1. -/
theorem test_lane_set :
    laneSet #v[true, true, false, true] (laneCount #v[true, true, false, true] 4) =
      #v[true, true, false, false] := by decide

/-- R120: 100, 105, 115 and 120 °C are codes 1312, 1352, 1432 and 1472. -/
theorem test_temperature_stages :
    tempStage 0 1351 = 0 ∧ tempStage 0 1352 = 2 ∧ tempStage 2 1312 = 2 ∧ tempStage 2 1311 = 0 ∧
      tempStage 2 1472 = 3 ∧ tempStage 3 1432 = 3 ∧ tempStage 3 1431 = 2 := by decide

/-- R170: the first bit set while no attention is outstanding raises one report, the second none. -/
theorem test_attention_once :
    ((State.reset.setSummary bitTime).setSummary bitMsg).mge.reports =
        [⟨.attention, pack8 0x20 ++ packTime 0⟩] ∧
      ((State.reset.setSummary bitTime).setSummary bitMsg).mge.summary = 0xA0 := by decide +kernel

/-! ## Witnesses: a state and operands that meet the hypotheses of each obligation, clause by clause -/

theorem witness_IdleAndUnpoweredSteps :
    State.reset.pending = [] ∧ State.reset.powered = true ∧
      { State.reset with powered := false }.pending = [] ∧
      { State.reset with powered := false }.powered = false ∧
      Instr.samplingTick ≠ .powerOnReset ∧ Instr.samplingTick ≠ .d0SignalDetect ∧
      Instr.samplingTick ≠ .d0SignalLoss := by decide

/-- R153: a Read Channel Filter arrives as a routed frame, and its reply counts that frame's own hit. -/
theorem test_read_filter_counts_itself :
    let u := after (execReadChannelFilter 0 [0] (receiving .control 0))
    u.cfl.entries[0].hits = 1 ∧ u.lnk.counters.good = 1 ∧ u.mge.admitted = 1 := by decide +kernel

/-- R152: a CONTROL entry behind one that takes every channel admits no request any more. -/
theorem test_shadowed_control :
    let s := (receiving .discard 0).setCfl { (receiving .discard 0).cfl with
      entries := (receiving .discard 0).cfl.entries.set 7 (catchAll .control) }
    s.bring ⟨0x75, 0, []⟩ = s := by decide +kernel

theorem witness_RequestArrivesWithItsRow :
    let s := receiving .control 7
    let behind := s.setMge { s.mge with requests := [⟨0x10, 1, [0]⟩] }
    let hits := fun (_ : State) (c : BitVec 12) (e : FilterEntry) =>
      e.enabled = true ∧ c &&& e.mask = e.value &&& e.mask
    (s.powered = true ∧ s.mge.requests.head? ≠ some ⟨0x70, 0, []⟩ ∧ s.lnk.state = .up ∧
        s.lnk.suspended = false ∧ ([] : List Byte).length + 6 ≤ 24576 ∧
        (hits s 0 s.cfl.entries[(0 : Fin 8)] ∧ s.cfl.entries[(0 : Fin 8)].dest = .control) ∧
        (∀ j : Fin 8, j < 0 → ¬ hits s 0 s.cfl.entries[j]) ∧ ∀ d : BitVec 12, ¬ d < 0) ∧
      (s.mge.admitted < 8 ∧ s.mge.requests = []) ∧
      (behind.mge.admitted < 8 ∧ behind.mge.requests ≠ [] ∧
        behind.mge.requests.head? ≠ some ⟨0x70, 0, []⟩) ∧
      8 ≤ (receiving .control 8).mge.admitted ∧ State.reset.lnk.state ≠ .up ∧
      ∀ i : Fin 8, (receiving .time 7).cfl.entries[i].dest ≠ .control :=
  ⟨⟨rfl, by decide, rfl, rfl, by decide, ⟨⟨rfl, rfl⟩, rfl⟩, fun j h => absurd h (by omega),
    fun d h => absurd h (by bv_omega)⟩, ⟨by decide, rfl⟩, ⟨by decide, by decide, by decide⟩, by decide,
    by decide, by decide⟩

theorem witness_BadRequestsAnswered (k : Byte) (n : Nat) :
    (Stands (asked k 0 (List.replicate (n + 1) 0)) k 0 (List.replicate (n + 1) 0) ∧
      (List.replicate (n + 1) (0 : Byte)).length ≠ n) ∧
      (Stands (asked 0x40 0 []) 0x40 0 [] ∧ Stands (asked 0x41 0 [1, 1]) 0x41 0 [1, 1] ∧
        Stands (asked 0x42 0 [0]) 0x42 0 [0] ∧ Stands (asked 0x43 0 [4]) 0x43 0 [4] ∧
        3 < (4 : Byte).toNat) ∧
      isRequestKind 0x0F = false ∧ Stands (asked 0x0F 1 []) 0x0F 1 [] :=
  ⟨⟨⟨rfl, rfl⟩, by simp⟩, ⟨⟨rfl, rfl⟩, ⟨rfl, rfl⟩, ⟨rfl, rfl⟩, ⟨rfl, rfl⟩, by decide⟩, by decide, ⟨rfl, rfl⟩⟩

theorem witness_PowerOnResetValues : { State.reset with powered := false }.powered = false := rfl

theorem witness_PowerLossCutsStoreOperation :
    let idle := State.reset.setCst { Cst.reset with op := .idle }
    let erasing := State.reset.setCst { Cst.reset with op := .erasing 7 1 }
    let programming := State.reset.setCst { Cst.reset with op := .programming 0 960 (List.replicate 64 0) 1 }
    (idle.powered = true ∧ (∀ p e, idle.cst.op ≠ .erasing p e) ∧
        ∀ p o d e, idle.cst.op ≠ .programming p o d e) ∧
      (erasing.powered = true ∧ storeWf erasing.cst.array = true ∧
        (∃ e, erasing.cst.op = .erasing (7 : Fin 8).val e) ∧ 7168 = (7 : Fin 8).val * 1024) ∧
      programming.powered = true ∧ storeWf programming.cst.array = true ∧
        ∃ o d e, programming.cst.op = .programming (0 : Fin 8).val o d e ∧
          960 = (0 : Fin 8).val * 1024 + o ∧ 64 = d.length ∧ 1 ≤ 64 ∧ o + 64 ≤ 1024 :=
  ⟨⟨rfl, (fun _ _ h => nomatch h), (fun _ _ _ _ h => nomatch h)⟩, ⟨rfl, rfl, ⟨1, rfl⟩, rfl⟩,
    rfl, rfl, 960, List.replicate 64 0, 1, rfl, rfl, rfl, by decide, by decide⟩

theorem witness_StoreLoadEndHandsOver :
    let s := linked { Lnk.reset with d0Signal := true }
    (State.reset.powered = true ∧ State.reset.cst.op = .loading 3750000 ∧ State.reset.lnk.d0Signal = false) ∧
      s.powered = true ∧ s.cst.op = .loading 3750000 ∧ s.lnk.state = .down ∧ s.lnk.backoff = none ∧
      s.lnk.d0Signal = true := by decide

/-- Page 7 holds one IDENT record and its check word: 7 + 255 × 1015 is 0xF310 modulo 65536. -/
def onePage : Cst :=
  { Cst.reset with
    array := [(7168, 1), (7169, 5), (7170, 1), (7171, 0), (7172, 0), (7173, 0), (7174, 0), (8190, 0x10),
      (8191, 0xF3)] }

/-- R177, R180: a byte altered, in the record region or in the check word, leaves no valid page valid. -/
theorem test_altered_page_fails :
    let s := State.reset.setCst onePage
    s.cst.pageValid 7 = true ∧ (s.alter 7268).cst.pageValid 7 = false ∧ (s.alter 8191).cst.pageValid 7 = false :=
  ⟨by decide +kernel, State.alter_fails (page := 7) (i := 100) rfl (by decide) (by decide +kernel),
    State.alter_fails (page := 7) (i := 1023) rfl (by decide) (by decide +kernel)⟩

/-- R39, R41, R91, R125, R132: what the owners take of a record whose values lie outside their ranges. -/
theorem test_taken_records :
    takeAxisRecord [2, 1, 0, 0xFF, 1, 1] = some ⟨⟨.gz, false⟩, ⟨.gx, true⟩, ⟨.gy, false⟩⟩ ∧
      takeAxisRecord [2, 1, 2, 1, 1, 1] = none ∧
      takePanelRecord [0, 0, 1, 64, 0x89, 0x13] = some ⟨256, 16384, 5000⟩ ∧
      takePowerRecord [81, 9, 0xDD, 5, 31] = some ⟨80, 9, 1500, 16⟩ ∧
      takeScheduleRecord [0xF3, 1, 1, 1, 0, 0] = some ⟨.hz250, Smp.defaultSlots⟩ ∧
      takeWearRecord [0, 0, 0, 0, 0, 0, 0, 0x80, 0, 0x80, 0, 4] = some ⟨⟨0, 0, 1, -32768, 32767⟩, 1023⟩ := by
  decide +kernel

theorem witness_WinningRecordIsLastInHighestPage :
    onePage.winner .ident = some (7, [1, 0, 0, 0, 0]) ∧ onePage.winner .axis = none ∧
      (walkRecords 511 ((List.range 1022).map fun n => storeRead onePage.array (7168 + n)) =
        [] ++ ⟨1, [1, 0, 0, 0, 0]⟩ :: [] ∧ RecordType.code .ident = 1) ∧
      takePanelRecord [] = none ∧ onePage.pageValid 7 = true ∧ (∀ p, Cst.reset.pageValid p = false) ∧
      ({ onePage with array := [(0, 1), (1, 5), (2, 1), (3, 0), (4, 0), (5, 0), (6, 0), (1022, 0x10),
        (1023, 0xF3)] }.pageValid 0 = true ∧
        { onePage with array := [(0, 1), (1, 5), (2, 1), (3, 0), (4, 0), (5, 0), (6, 0), (1022, 0x10),
        (1023, 0xF3)] }.lastIn 0 .ident = some [1, 0, 0, 0, 0]) ∧
      (List.replicate 32 (0 : Byte)).length = 32 ∧
      (3 ≤ ([0, 0, 0] : List Byte).length ∧ ([0, 0, 0] : List Byte).length = 3 + 3 * field [0, 0, 0] 2 1 ∧
        slotListOf 0 [] = some [] ∧ slotListOf 1 [9, 0, 0] = none) := by decide +kernel

theorem witness_ReadTimeAnswersAndClears :
    Stands (asked 0x10 0 [0]) 0x10 0 [0] ∧ Stands (asked 0x10 0 [255]) 0x10 0 [255] := by decide

/-- An Add Action of a Marker with a due time in µs. -/
def addMarker (id due : Byte) : List Byte := [id, 1, due, 0, 0, 0, 0, 0, 0, 0x1F]

theorem witness_AddActionStoresOrFires :
    let full := (asked 0x11 0 (addMarker 15 1)).setTas { Tas.reset with table := someMarkers 15 }
    let att : List Byte := [9, 3, 0, 0, 0, 0, 0, 0, 7, 0x50, 12, 0]
    let due := asked 0x11 0 att
    (Stands full 0x11 0 (addMarker 15 1) ∧ 10 ≤ (addMarker 15 1).length ∧
        ActionKind.ofCode ((addMarker 15 1).getD 9 0) = some .marker ∧
        (addMarker 15 1).length = 10 + ActionKind.paramLength .marker ∧
        triggerOf (field (addMarker 15 1) 1 1) (field (addMarker 15 1) 2 6) (field (addMarker 15 1) 8 1) =
          some (.timed 1) ∧
        (∀ e ∈ full.tas.table, e.id ≠ (addMarker 15 1).headD 0) ∧ full.tas.table.length < 16 ∧
        full.tas.now.toNat < (1 : Time).toNat) ∧
      Stands due 0x11 0 att ∧ ActionKind.ofCode (att.getD 9 0) = some .setAttenuation ∧
        att.length = 10 + ActionKind.paramLength .setAttenuation ∧
        triggerOf (field att 1 1) (field att 2 6) (field att 8 1) = some (.timedGrouped 0 7) ∧
        (∀ e ∈ due.tas.table, e.id ≠ att.headD 0) ∧ due.tas.table.length < 16 ∧
        (Trigger.timedGrouped 0 7).due = some (0 : Time) ∧ (0 : Time).toNat ≤ due.tas.now.toNat ∧
        (ActionKind.deliver .setAttenuation [12, 0] due.popRequest).state.mge.enables.actionDone = true ∧
        (ActionKind.deliver .setAttenuation [12, 0] (due.setMge { due.mge with
          enables := { due.mge.enables with actionDone := false } }).popRequest).state.mge.enables.actionDone =
            false := by
  decide +kernel

theorem witness_AddActionRefusals :
    let full := (asked 0x11 0 (addMarker 16 1)).setTas { Tas.reset with table := someMarkers 16 }
    Stands (asked 0x11 0 []) 0x11 0 [] ∧
      (Stands (asked 0x11 0 (List.replicate 9 0)) 0x11 0 (List.replicate 9 0) ∧
        (List.replicate 9 (0 : Byte)).length < 10) ∧
      ActionKind.ofCode ((List.replicate 10 (0 : Byte)).getD 9 0) = none ∧
      (addMarker 1 1 ++ [0]).length ≠ 10 + ActionKind.paramLength .marker ∧
      triggerOf 2 0 8 = none ∧ triggerOf 0 0 0 = none ∧
      (Stands full 0x11 0 (addMarker 16 1) ∧ (∀ e ∈ full.tas.table, e.id ≠ (addMarker 16 1).headD 0) ∧
        16 ≤ full.tas.table.length) ∧
      ∃ e ∈ full.tas.table, e.id = (addMarker 15 1).headD 0 := by decide +kernel

theorem witness_CancelActionRemovesEntry :
    let s := (asked 0x12 0 [15]).setTas { Tas.reset with table := someMarkers 16 }
    (Stands s 0x12 0 [15] ∧ ∃ e ∈ s.tas.table, e.id = 15) ∧
      Stands (asked 0x12 0 [16]) 0x12 0 [16] ∧ ∀ e ∈ (asked 0x12 0 [16]).tas.table, e.id ≠ 16 := by
  decide +kernel

theorem witness_ListActionsReturnsTable : Stands (asked 0x13 0 []) 0x13 0 [] := by decide

/-- R16, R21: two entries of three fire and are counted, whatever their due times; of another group none. -/
theorem test_group_trigger_counts :
    let s := (asked 0x14 0 [7]).setTas { Tas.reset with
      table := [aMarker 1 (.timedGrouped 9 7), aMarker 2 (.grouped 6), aMarker 3 (.grouped 7)] }
    (groupTrigger [7] s).fields = [7, 2] ∧
      (groupTrigger [7] s).state.tas.table = [aMarker 2 (.grouped 6)] ∧
      (groupTrigger [5] s).fields = [5, 0] := by decide +kernel

theorem witness_GroupTriggerFiresGroup :
    let s := (asked 0x14 0 [7]).setTas { Tas.reset with table := [aMarker 1 (.grouped 7)] }
    let two := (asked 0x14 0 [7]).setTas { Tas.reset with
      table := [aMarker 1 (.timedGrouped 9 7), aMarker 2 (.grouped 6), aMarker 3 (.grouped 7)] }
    (Stands s 0x14 0 [7] ∧ (7 : Byte).toNat ≤ 7 ∧ s.tas.tableOk) ∧
      (Stands two 0x14 0 [7] ∧ two.tas.tableOk) ∧
      (Stands (asked 0x14 0 [0]) 0x14 0 [0] ∧ (asked 0x14 0 [0]).tas.table = []) ∧
      (Stands (asked 0x14 0 [8]) 0x14 0 [8] ∧ 7 < (8 : Byte).toNat) ∧
      (s.tas.table = [aMarker 1 (.grouped 7)] ∧
        (aMarker 1 (.grouped 7)).trigger.group = some (7 : Byte).toNat ∧
        (aMarker 1 (.grouped 7)).kind = .marker ∧ s.mge.enables.actionDone = true) ∧
      Stands (asked 0x52 0 []) 0x52 0 [] ∧ Stands (asked 0x44 0 [1]) 0x44 0 [1] :=
  ⟨⟨⟨rfl, rfl⟩, by decide, by decide, by decide⟩, ⟨⟨rfl, rfl⟩, by decide, by decide⟩, ⟨⟨rfl, rfl⟩, rfl⟩,
    ⟨⟨rfl, rfl⟩, by decide⟩, ⟨rfl, rfl, rfl, rfl⟩, ⟨rfl, rfl⟩, rfl, rfl⟩

theorem witness_ExpiryFiresEveryEntryDue :
    let s := State.reset.setTas { Tas.reset with table := [aMarker 1 (.timed 0), aMarker 2 (.timed 0)] }
    (s.powered = true ∧ s.tas.table = aMarker 1 (.timed 0) :: [aMarker 2 (.timed 0)] ∧
        (aMarker 1 (.timed 0)).trigger.due = some 0 ∧ s.tas.tableOk ∧ s.tas.now.toNat ≤ (0 : Time).toNat ∧
        (∀ x ∈ s.tas.table, x.kind = .marker) ∧ s.mge.enables.actionDone = true ∧
        s.mge.reports.length + 2 ≤ 8) ∧
      State.reset.powered = true ∧
        ∀ e, State.reset.tas.table.head? = some e → e.trigger.due = none :=
  ⟨⟨rfl, rfl, rfl, ⟨by decide, by decide⟩, by decide, by decide, rfl, by decide⟩, rfl,
    fun _ h => nomatch h⟩

/-- R5, R6: a step forward past an entry's due time fires it, a step backward fires nothing. -/
theorem test_time_step_fires :
    let s := State.reset.setTas { Tas.reset with
      now := 10, valid := true, table := [aMarker 1 (.timed 12)] }
    (s.timeMark [13, 0, 0, 0, 0, 0]).tas.table = [] ∧ (s.timeMark [13, 0, 0, 0, 0, 0]).tas.stepCount = 1 ∧
      (s.timeMark [7, 0, 0, 0, 0, 0]).tas.table = [aMarker 1 (.timed 12)] ∧
      (s.timeMark [7, 0, 0, 0, 0, 0]).tas.now = 7 := by decide +kernel

theorem witness_TimeMarkOutcomes :
    let s := State.reset.setTas { Tas.reset with
      now := 10, valid := true, table := [aMarker 1 (.timed 12)] }
    let first := s.setTas { s.tas with valid := false }
    let offset := fun p : List Byte => (BitVec.ofNat 48 (field p 0 6) - s.tas.now).toInt
    ([] : List Byte).length ≠ 6 ∧ s.tas.valid = true ∧
      (first.tas.valid = false ∧ field [10, 0, 0, 0, 0, 0] 0 6 ≤ first.tas.now.toNat ∧
        first.tas.now.toNat < field [11, 0, 0, 0, 0, 0] 0 6) ∧
      offset [8, 0, 0, 0, 0, 0] = -2 ∧ offset [12, 0, 0, 0, 0, 0] = 2 ∧
      offset [7, 0, 0, 0, 0, 0] < -2 ∧ 2 < offset [13, 0, 0, 0, 0, 0] ∧
      s.mge.enables.timeStep = true := by decide +kernel

/-- R22: a list without a slot of either device clears both fault states, and the wear and presence state. -/
theorem test_schedule_drops_devices :
    let s := State.reset.setSmp { Smp.reset with
      faults := ⟨⟨true, 8⟩, ⟨false, 3⟩⟩, removed := true, presence := .removed, tickDue := some 9 }
    let m := (setSchedule [0] s).state.smp
    m.faults = ⟨⟨false, 0⟩, ⟨false, 0⟩⟩ ∧ m.removed = false ∧ m.presence = .active ∧ m.tickDue = none := by
  decide +kernel

theorem witness_SetScheduleReplacesList :
    let faulted := (asked 0x20 0 [0]).setSmp { Smp.reset with
      faults := ⟨⟨true, 8⟩, ⟨true, 8⟩⟩, removed := true, still := true, presence := .removed }
    let empty := (asked 0x20 0 [1, 0, 0x22, 0]).setSmp { Smp.reset with slotList := [] }
    (Stands faulted 0x20 0 [0] ∧ ([] : List Byte).length = 3 * (0 : Byte).toNat ∧
        slotListOf (0 : Byte).toNat [] = some [] ∧ Presence.still ≠ faulted.smp.presence ∧
        faulted.smp.faults.inertial.faulted = true ∧ faulted.mge.enables.presence = true) ∧
      (Stands empty 0x20 0 [1, 0, 0x22, 0] ∧ empty.smp.slotList = [] ∧
        slotListOf (1 : Byte).toNat [0, 0x22, 0] = some [⟨.inertial, 0x22, some .gx⟩]) ∧
      ([0, 0x22, 0] : List Byte).length = 3 * 1 ∧
      (Stands (asked 0x20 0 []) 0x20 0 [] ∧ ([] : List Byte).length ≠ 1 + 3 * field [] 0 1) ∧
      Stands (asked 0x20 0 [1, 9, 0, 0]) 0x20 0 [1, 9, 0, 0] ∧
        ([1, 9, 0, 0] : List Byte).length = 1 + 3 * field [1, 9, 0, 0] 0 1 ∧
        slotListOf (field [1, 9, 0, 0] 0 1) [9, 0, 0] = none := by decide +kernel

theorem witness_MotionRequestsApplied :
    (Stands (asked 0x21 0 [100, 0]) 0x21 0 [100, 0] ∧ ([100, 0] : List Byte).length = 2) ∧
      (Stands (asked 0x22 0 [0, 0, 0, 0, 0x20]) 0x22 0 [0, 0, 0, 0, 0x20] ∧
        Channel.ofCode (field [0, 0, 0, 0, 0x20] 0 1) = some .gx ∧
        8192 ≤ field [0, 0, 0, 0, 0x20] 3 2 ∧ field [0, 0, 0, 0xFF, 0x7F] 3 2 ≤ 32767) ∧
      (Channel.ofCode (field [8, 0, 0, 0, 0x20] 0 1) = none ∧ field [0, 0, 0, 0xFF, 0x1F] 3 2 < 8192 ∧
        32767 < field [0, 0, 0, 0, 0x80] 3 2 ∧ field [0, 0, 0, 0, 0] 4 1 = 0 ∧
        8 < field [0, 0, 0, 0, 9] 4 1) ∧
      Stands (asked 0x23 0 [0, 0, 0, 0, 1, 0]) 0x23 0 [0, 0, 0, 0, 1, 0] ∧
      Stands (asked 0x24 0 [0, 0, 0, 0]) 0x24 0 [0, 0, 0, 0] ∧
      Stands (asked 0x25 0 [1, 8]) 0x25 0 [1, 8] ∧
      (Stands (asked 0x26 0 [0, 0, 0, 0, 1]) 0x26 0 [0, 0, 0, 0, 1] ∧ 1 ≤ field [0, 0, 0, 0, 1] 4 1 ∧
        field [0, 0, 0, 0, 8] 4 1 ≤ 8) ∧
      Stands (asked 0x27 0 [1]) 0x27 0 [1] ∧ Stands (asked 0x30 0 [0]) 0x30 0 [0] := by decide +kernel

/-- A set of two slots whose first read is in progress since oscillator count 0. -/
def aSet (ready : Option Nat) : SampleSet :=
  ⟨[⟨.inertial, 0x22, some .gx⟩, ⟨.inertial, 0x24, some .gy⟩],
    [⟨.inertial, 0x22, some .gx⟩, ⟨.inertial, 0x24, some .gy⟩], 0, 1000, .const .absent, ⟨false, false⟩, 0,
    ready⟩

def sampling (st : Option SampleSet) : State :=
  State.reset.setSmp { Smp.reset with tickDue := some 750000, set := st }

theorem witness_TickStartsOrIsSkipped :
    (sampling none).powered = true ∧ (sampling none).smp.tickDue = some 750000 ∧
      (sampling none).smp.set = none ∧ (sampling (some (aSet none))).smp.set ≠ none := by decide

theorem witness_SensorReadsAdvanceSet :
    let s := { sampling (some (aSet none)) with osc := 75000 }
    let r := sampling (some (aSet (some 75000)))
    let x : SensorSlot := ⟨.inertial, 0x20, none⟩
    let bare := { aSet (some 75000) with todo := [x, x] }
    (s.powered = true ∧ s.smp.set = some (aSet none) ∧
        (aSet none).todo = ⟨.inertial, 0x22, some .gx⟩ :: ⟨.inertial, 0x24, some .gy⟩ :: [] ∧
        (aSet none).readyAt = none ∧ s.osc ≤ (aSet none).readStart + us 100) ∧
      (r.smp.set = some (aSet (some 75000)) ∧ (aSet (some 75000)).readyAt = some 75000) ∧
      (sampling (some bare)).smp.set = some bare ∧ bare.todo = x :: x :: [] ∧ x.channel = none := by decide

/-- R28: the eighth set in a row with a failed read of the device makes it FAULTED and sets MOTION; R48: after the
greatest sequence number comes 1. -/
theorem test_fault_and_wrap :
    let st := { aSet none with todo := [⟨.inertial, 0x24, some .gy⟩] }
    let s := (sampling (some st)).setSmp { (sampling (some st)).smp with
      faults := ⟨⟨false, 7⟩, ⟨false, 0⟩⟩, lastSeq := BitVec.allOnes 32 }
    let u := after (execSensorReadTimeout s)
    u.smp.faults.inertial = ⟨true, 8⟩ ∧ u.mge.summary = bitMotion ∧ u.smp.lastSeq = 1 ∧
      u.smp.ring.length = 1 ∧ u.ori.history.length = 1 := by decide +kernel

theorem witness_LastReadCompletesSet :
    let x : SensorSlot := ⟨.inertial, 0x24, some .gy⟩
    let y : SensorSlot := ⟨.proximity, 0x01, none⟩
    let good := { aSet (some 5) with todo := [x] }
    let bare := { aSet (some 5) with todo := [y] }
    let late := { aSet none with todo := [x] }
    let faulty := fun n => (sampling (some late)).setSmp { (sampling (some late)).smp with
      faults := ⟨⟨decide (n = 8), n⟩, ⟨true, 8⟩⟩ }
    ((∃ x ∈ late.slots, x.device = .inertial) ∧ ({ late.failing with inertial := true }).get .inertial = true ∧
        ((faulty 7).smp.faults.get .inertial).faulted = false ∧
        8 ≤ ((faulty 7).smp.faults.get .inertial).failing + 1 ∧
        late.failing.get .inertial = false ∧ ((faulty 8).smp.faults.get .inertial).faulted = true ∧
        (faulty 7).mge.enables.presence = true) ∧
    (sampling (some good)).powered = true ∧
      ((sampling (some good)).smp.set = some good ∧ good.todo = [x] ∧ good.readyAt = some 5 ∧
        x.channel = some .gy) ∧
      ((sampling (some bare)).smp.set = some bare ∧ bare.todo = [y] ∧ bare.readyAt = some 5 ∧
        y.channel = none) ∧
      (sampling (some late)).smp.set = some late ∧ late.todo = [x] ∧ late.readyAt = none := by decide

theorem witness_IntegratorAddsRateTimesInterval :
    { Ori.reset with previousTime := some 0 }.previousTime = some 0 := rfl

def aPose : PoseEntry := ⟨5, 1000, 0, 0, 0, 0, 0, 1000, false, false, false⟩

theorem witness_PoseLookupAndLateShift :
    let o := { Ori.reset with history := [aPose] }
    (o.history.find? (fun e => decide (e.seq = 5)) = some aPose ∧ o.history.getLast? = some aPose ∧
        ((61000 : Time) - aPose.time).toInt ≤ 60000 ∧ 60000 < ((61001 : Time) - aPose.time).toInt) ∧
      (∀ e ∈ o.history, e.seq ≠ 6) ∧ Lookup.valid 0 0 0 0 0 ≠ .stale .aged ∧
      (o.lookup 5 61001).1 = .stale .aged ∧ (o.lookup 6 0).1 = .stale .missing := by decide +kernel

theorem witness_SetDisplayModeFreesSlots :
    (Stands (asked 0x38 0 [90, 128, 128, 0]) 0x38 0 [90, 128, 128, 0] ∧
        RefreshRate.ofHz (90 : Byte).toNat = some .hz90 ∧ (128 : Byte).toNat % 2 = 0 ∧
        (128 : Byte).toNat ≤ 128 ∧ (asked 0x38 0 [90, 128, 128, 0]).sco.anyShowing = false) ∧
      (Stands (panels .showing .off (asked 0x38 0 [90, 0, 0, 0])) 0x38 0 [90, 0, 0, 0] ∧
        (panels .showing .off (asked 0x38 0 [90, 0, 0, 0])).sco.anyShowing = true) ∧
      RefreshRate.ofHz (91 : Byte).toNat = none ∧ (127 : Byte).toNat % 2 = 1 ∧ 128 < (130 : Byte).toNat ∧
      (1 : Byte) ≠ 0 := by decide +kernel

/-- An eye whose slot 0 is FILLING frame 3 from line `n` on. -/
def filling (n : Nat) : Eye :=
  { Eye.reset with slots := #v[⟨.filling, 3, 0, false, n, 0, []⟩, FrameSlot.freed, FrameSlot.freed] }

/-- R59, R66: of two COMPLETE frames a header reclaims the older and a selection takes the newer, across the
wrap of the completion order. -/
theorem test_header_and_select :
    let complete := fun n => { FrameSlot.freed with state := .complete, order := n }
    let e := { Eye.reset with slots := #v[complete 5, { FrameSlot.freed with state := .scanning, frame := 9 },
      complete 0xFFFFFFFF] }
    (e.header 7 1 false).1.slots[2].state = .filling ∧ (e.header 7 1 false).1.counters.dropped = 1 ∧
      e.select.2.slots[0].state = .scanning ∧ e.select.2.slots[1].state = .free ∧
      e.select.2.counters.dropped = 1 := by decide +kernel

/-- R57: a FREE slot keeps its lines in DRAM, and the next frame's overwrite them line by line. -/
theorem test_lines_overwritten :
    let m : DisplayMode := ⟨.hz90, 0, 0⟩
    let f : FrameSlot := { FrameSlot.freed with state := .filling, lines := [[1], [2], [3]], nextLine := 1 }
    (f.store m ⟨0, 1, 1, [7]⟩).lines = [[1], [7], [3]] ∧ f.release.lines = f.lines := by decide +kernel

theorem witness_SliceAndSelectionOutcomes :
    let m : DisplayMode := ⟨.hz90, 0, 0⟩
    let line : List Byte := List.replicate 4800 0
    let three := fun (a b c : FrameSlot) => { Eye.reset with slots := #v[a, b, c] }
    let complete := fun n => { FrameSlot.freed with state := .complete, order := n }
    let scanning := { FrameSlot.freed with state := .scanning }
    let full := three (complete 5) scanning (complete 0xFFFFFFFF)
    ((filling 8).filling = some 0 ∧ (2 : BitVec 16) ≠ (filling 8).slots[0].frame ∧
        7 < (filling 8).slots[0].nextLine ∧ (filling 8).slots[0].nextLine < 9 ∧ m.height < 1599 + 2 ∧
        (0 : Nat) ≠ 1 * m.lineLength) ∧
      ((filling 1599).filling = some 0 ∧ (3 : BitVec 16) = (filling 1599).slots[0].frame ∧
        1599 = (filling 1599).slots[0].nextLine ∧ 1599 + 1 = m.height ∧ 8 + 4 < m.height ∧
        line.length = 1 * m.lineLength ∧ 0 ≤ (filling 0).slots[0].lines.length) ∧
      (Eye.reset.filling = none ∧ Eye.reset.slots[0].state = .free ∧ full.filling = none ∧
        (∀ j : Fin 3, full.slots[j].state ≠ .free) ∧ full.slots[(2 : Fin 3)].state = .complete ∧
        0 < (full.slots[(0 : Fin 3)].order - full.slots[(2 : Fin 3)].order).toNat ∧
        (full.slots[(0 : Fin 3)].order - full.slots[(2 : Fin 3)].order).toNat < 2147483648) ∧
      (([3] : List Byte).headD 0 ≠ 1 ∧ ([3] : List Byte).headD 0 ≠ 2 ∧
        ([1, 0] : List Byte).length ≠ 8 ∧ ([2, 0, 0, 0, 0] : List Byte).length < 6) ∧
      Eye.reset.inState .complete = [] ∧ Eye.reset.inState .scanning = [] ∧
      (three scanning FrameSlot.freed FrameSlot.freed).inState .scanning = 0 :: [] ∧
      full.inState .complete = [0, 2] := by decide +kernel

theorem witness_PanelsOnRampsUp :
    let off := asked 0x40 0 [3]
    let up := panels .standby .showing (asked 0x40 0 [3])
    let ramping := panels .off .rampDown (asked 0x40 0 [3])
    let hot := (asked 0x40 0 [1]).setPmg { Pmg.reset with emergency := true }
    (Stands off 0x40 0 [3] ∧ panelSetOfCode (3 : Byte).toNat = some [.left, .right] ∧
        off.pmg.emergency = false ∧ (∀ p ∈ [Panel.left, .right], (off.panel p).ramping = false) ∧
        ∃ p ∈ [Panel.left, .right], (off.panel p).state = .off) ∧
      (Stands up 0x40 0 [3] ∧ (∀ p ∈ [Panel.left, .right], (up.panel p).ramping = false) ∧
        ∀ p ∈ [Panel.left, .right], (up.panel p).state ≠ .off) ∧
      (Stands ramping 0x40 0 [3] ∧ ramping.pmg.emergency = false ∧
        ∃ p ∈ [Panel.left, .right], (ramping.panel p).ramping = true) ∧
      Stands hot 0x40 0 [1] ∧ panelSetOfCode (1 : Byte).toNat = some [.left] ∧ hot.pmg.emergency = true := by
  decide +kernel

theorem witness_PanelsOffRampsDown :
    let s := panels .showing .off (asked 0x41 0 [3])
    let mid := (panels .showing .showing (asked 0x41 0 [2])).setSco
      { (panels .showing .showing (asked 0x41 0 [2])).sco with refreshing := some ⟨0, .right, []⟩ }
    (Stands s 0x41 0 [3] ∧ panelSetOfCode (3 : Byte).toNat = some [.left, .right] ∧
        (∀ p ∈ [Panel.left, .right], (s.panel p).ramping = false) ∧
        (∃ p ∈ [Panel.left, .right], (s.panel p).state ≠ .off) ∧ s.sco.refreshing = none) ∧
      (Stands (panels .rampUp .standby (asked 0x41 0 [3])) 0x41 0 [3] ∧
        ∃ p ∈ [Panel.left, .right],
          ((panels .rampUp .standby (asked 0x41 0 [3])).panel p).ramping = true) ∧
      (Stands (asked 0x41 0 [3]) 0x41 0 [3] ∧
        ∀ p ∈ [Panel.left, .right], ((asked 0x41 0 [3]).panel p).state = .off) ∧
      Stands mid 0x41 0 [2] ∧ panelSetOfCode (2 : Byte).toNat = some [.right] ∧
        (mid.panel .right).ramping = false ∧ (mid.panel .right).state ≠ .off ∧
        mid.sco.refreshing = some ⟨0, .right, []⟩ ∧ mid.mge.enables.refresh = false := by decide +kernel

theorem witness_RampEndsAnswerRequest :
    let up := (panels .rampUp .off State.reset).setMge { Mge.reset with
      inProgress := [⟨0x40, 0, .panels [.left] 1⟩] }
    let down := (panels .off .rampDown State.reset).setMge { Mge.reset with
      inProgress := [⟨0x41, 0, .panels [.right] 2⟩] }
    (up.powered = true ∧ up.mge.inProgress = [⟨0x40, 0, .panels [.left] 1⟩] ∧
        (up.panel .left).state = .rampUp) ∧
      down.mge.inProgress = [⟨0x41, 0, .panels [.right] 2⟩] ∧ (down.panel .right).state = .rampDown := by
  decide +kernel

/-- R78, R83: Panels Show with the timer stopped delivers a refresh start at that moment, which a Panels Standby
that follows in the same step finds done. -/
theorem test_show_starts_refresh :
    let s := ((panels .standby .off (asked 0x42 0 [1])).setFri { Fri.reset with
      mode := some ⟨.hz60, 0, 0⟩ }).setTas { Tas.reset with now := 77 }
    let t := (panelsShow [1] s).state
    t.sco.latestRefresh = 77 ∧ t.fri.eyes.left.counters.blank = 1 ∧ t.fri.eyes.right.counters.blank = 0 ∧
      t.sco.refreshDue.isSome ∧ ((panelsStandby [1] t).state).sco.refreshDue = none := by decide +kernel

/-- R78, R85: with one panel SHOWING its work is in the start itself, whichever panel the turn names. -/
theorem test_turn_of_a_dark_panel :
    let s := ((panels .standby .off (asked 0x42 0 [1])).setFri { Fri.reset with
      mode := some ⟨.hz60, 0, 0⟩ }).setTurns [.only .right]
    let t := (panelsShow [1] s).state
    t.fri.eyes.left.counters.blank = 1 ∧ t.sco.refreshing = none ∧ t.turns = [] := by decide +kernel

theorem witness_PanelsShowAndStandby :
    let mode := fun s : State => s.setFri { Fri.reset with mode := some ⟨.hz60, 0, 0⟩ }
    let show' := mode (panels .standby .standby (asked 0x42 0 [3]))
    let joins := mode (panels .standby .showing (asked 0x42 0 [1]))
    let stand := panels .showing .standby (asked 0x43 0 [3])
    let mid := stand.setSco { stand.sco with refreshing := some ⟨0, .left, []⟩ }
    panelSetOfCode (3 : Byte).toNat = some [.left, .right] ∧ panelSetOfCode (1 : Byte).toNat = some [.left] ∧
      (Stands show' 0x42 0 [3] ∧ show'.fri.mode = some ⟨.hz60, 0, 0⟩ ∧
        (∀ p ∈ [Panel.left, .right], (show'.panel p).state = .standby) ∧
        show'.sco.anyShowing = false) ∧
      (Stands joins 0x42 0 [1] ∧ (∀ p ∈ [Panel.left], (joins.panel p).state = .standby) ∧
        joins.sco.anyShowing = true) ∧
      (Stands (asked 0x42 0 [3]) 0x42 0 [3] ∧ (asked 0x42 0 [3]).fri.mode = none ∧
        ∃ p ∈ [Panel.left, .right], ((asked 0x42 0 [3]).panel p).state ≠ .standby) ∧
      (Stands stand 0x43 0 [3] ∧ (∀ p ∈ [Panel.left, .right], (stand.panel p).state = .standby ∨
        (stand.panel p).state = .showing) ∧ stand.sco.refreshing = none) ∧
      (Stands mid 0x43 0 [3] ∧ mid.sco.refreshing = some ⟨0, .left, []⟩) ∧
      Stands (asked 0x43 0 [3]) 0x43 0 [3] ∧
        ∃ p ∈ [Panel.left, .right], ((asked 0x43 0 [3]).panel p).state ≠ .standby ∧
          ((asked 0x43 0 [3]).panel p).state ≠ .showing := by
  decide +kernel

theorem witness_ScanSettingsAndQueries :
    (Stands (asked 0x44 0 [3, 255, 255]) 0x44 0 [3, 255, 255] ∧
        panelSetOfCode (field [3, 255, 255] 0 1) = some [.left, .right]) ∧
      Stands (asked 0x45 0 [0, 1, 0, 64, 0, 0]) 0x45 0 [0, 1, 0, 64, 0, 0] ∧
      ([0, 1, 0, 64, 0, 0] : List Byte).length = 6 ∧
      Stands (asked 0x46 0 [0]) 0x46 0 [0] ∧ Stands (asked 0x39 0 [1]) 0x39 0 [1] := by decide +kernel

/-- Both panels SHOWING, the left eye with a COMPLETE frame. -/
def refreshing : State :=
  ((panels .showing .standby State.reset).setFri { Fri.reset with
    mode := some ⟨.hz120, 128, 128⟩
    eyes := ⟨{ Eye.reset with slots := #v[{ FrameSlot.freed with state := .complete }, FrameSlot.freed,
      FrameSlot.freed] }, Eye.reset⟩ })

/-- R51, R84: the right panel's work first, then a sample, then the left panel's, which sees the newer sample. -/
theorem test_sample_between_the_panels :
    let pose : PoseEntry := ⟨0, 0, 0, 0, 0, 0, 0, 1000, false, false, false⟩
    let s := (((panels .showing .showing refreshing).setSco
      { (panels .showing .showing refreshing).sco with refreshDue := some 0 }).setTurns [.only .right]).setOri
        { Ori.reset with history := [pose] }
    let u := after (execRefreshStart s)
    let v := after (execRefreshStart (u.setOri
      { u.ori with history := [pose, { pose with seq := 1, yaw := 8000000 }] }))
    u.fri.eyes.right.counters.blank = 1 ∧ u.sco.refreshing.isSome = true ∧ (u.panel .left).sx = 0 ∧
      v.sco.refreshing = none ∧ (v.panel .left).sx = 10 := by decide +kernel

/-- An eye that is scanning a frame, of which two lines of two pixels are written out. -/
def shown : Eye :=
  { Eye.reset with slots := #v[FrameSlot.freed,
    { FrameSlot.freed with state := .scanning, lines := [[], [1, 2, 3, 4, 5, 6]] }, FrameSlot.freed] }

/-- R90: the panel's first column and second line show the frame's at the window placed. -/
theorem test_panel_pixel :
    let s := (State.reset.setFri { Fri.reset with eyes := ⟨shown, Eye.reset⟩ }).setPanel .left
      { panelAt .showing with window := some ⟨1, 0⟩ }
    s.panelPixel .left 0 1 = some [4, 5, 6] ∧ s.panelPixel .right 0 1 = none := by decide +kernel

theorem witness_RefreshStartAppliesEmission :
    let s := refreshing.setSco { refreshing.sco with refreshDue := some 6250000 }
    let turn := s.setTurns [.only .right]
    let both := ((panels .showing .showing s).setTurns [.only .left])
    let mid := s.setSco { s.sco with refreshing := some ⟨3, .left, List.replicate 10 0⟩ }
    let old := { Eye.reset with slots := #v[{ FrameSlot.freed with state := .scanning, noShift := true },
      FrameSlot.freed, FrameSlot.freed] }
    (s.powered = true ∧ s.sco.refreshing = none ∧ s.sco.refreshDue = some 6250000 ∧
        s.fri.mode = some ⟨.hz120, 128, 128⟩ ∧ (s.panel .left).state = .showing ∧
        (s.panel .right).state ≠ .showing ∧ s.turns.headD .both = .both) ∧
      (((s.fri.eyes.get .left).select).1 = .fresh 0 0 false ∧
        ((s.fri.eyes.get .right).select).1 = .nothing ∧ old.select.1 = .again 0 0 true) ∧
      (turn.turns.headD .both = .only .right ∧ (turn.panel .right).state ≠ .showing) ∧
      (both.turns.headD .both = .only .left ∧ (both.panel .left).state = .showing ∧
        (both.panel .right).state = .showing) ∧
      (mid.powered = true ∧ mid.fri.mode = some ⟨.hz120, 128, 128⟩ ∧
        mid.sco.refreshing = some ⟨3, .left, List.replicate 10 0⟩) ∧
      (State.reset.sco.refreshing = none ∧ State.reset.sco.refreshDue = none) ∧
      ((State.reset.panel .left).window = none ∧ ∀ i : Fin 3, Eye.reset.slots[i].state ≠ .scanning) ∧
      ({ panelAt .showing with window := some ⟨1, 0⟩ }.window = some ⟨1, 0⟩ ∧
        (∀ j : Fin 3, shown.slots[j].state = .scanning ↔ j = 1) ∧
        shown.slots[(1 : Fin 3)].lines[0 + 1]? = some [1, 2, 3, 4, 5, 6] ∧
        3 * (1 + 0) + 3 ≤ ([1, 2, 3, 4, 5, 6] : List Byte).length) := by
  decide +kernel

theorem witness_AudioRequestsApplied :
    let away := State.reset.setSmp { Smp.reset with removed := true, presence := .removed }
    let playing := State.reset.setAud { Aud.reset with
      play := .playing, current := some ⟨⟨0, 48, []⟩, 15625, 765625⟩ }
    let on := (asked 0x51 0 [48, 0, 2]).setAud { Aud.reset with capturing := true }
    (Stands (asked 0x50 0 [0, 1]) 0x50 0 [0, 1] ∧ ([0, 1] : List Byte).length = 2) ∧
      (Stands (asked 0x51 0 [48, 0, 1]) 0x51 0 [48, 0, 1] ∧ field [48, 0, 1] 2 1 = 1 ∧
        (asked 0x51 0 [48, 0, 1]).aud.capturing = false) ∧
      (Stands on 0x51 0 [48, 0, 2] ∧ field [48, 0, 2] 2 1 = 2 ∧ on.aud.capturing = true) ∧
      field [48, 0, 3] 2 1 ≠ 1 ∧ field [48, 0, 0] 2 1 ≠ 2 ∧
      (State.reset.smp.presence ≠ .removed ∧ away.smp.presence = .removed ∧ away.pmg.rowsHeld ∧
        away.aud.requestedAtt ≤ 255) ∧
      (State.reset.aud.current = none ∧ playing.aud.current = some ⟨⟨0, 48, []⟩, 15625, 765625⟩ ∧
        15625 + 47 * 15625 ≤ 765624 ∧ 765624 < 15625 + (47 + 1) * 15625 ∧ 765624 < 765625) ∧
      Stands (asked 0x52 0 []) 0x52 0 [] ∧ Stands (asked 0x53 0 [1]) 0x53 0 [1] := by
  unfold Pmg.rowsHeld
  decide +kernel

/-- An audio payload of 48 frames at a presentation time of 10 000 µs. -/
def blockBytes : List Byte := [0x10, 0x27, 0, 0, 0, 0, 48, 0] ++ List.replicate 192 0

def aBlock : AudioBlock := ⟨10000, 48, List.replicate 192 0⟩

/-- A state whose Audio Unit is as given, at a Tether Time. -/
def hearing (a : Aud) (now : Time) : State :=
  (State.reset.setAud a).setTas { Tas.reset with now := now }

/-- R105: at attenuation 40, 20 dB, a sample is a tenth; 0 leaves it and 255 mutes it. -/
theorem test_attenuation_ratio :
    outputSample 40 20000 = 2000 ∧ outputSample 40 (-32760) = -3276 ∧ outputSample 0 (-32768) = -32768 ∧
      outputSample 255 20000 = 0 := by decide +kernel

/-- R105: at attenuation 12, 6 dB, where 1000 becomes 501.187…, one of the two whole values next to it. -/
theorem test_attenuation_rounding : outputSample 12 1000 = 501 ∨ outputSample 12 1000 = 502 := by
  have h : outputSample 12 1000 = if Config.attenuateUp 12 1000 then 502 else 501 := by
    unfold outputSample
    cases Config.attenuateUp 12 1000 <;> decide +kernel
  rw [h]
  split <;> simp

theorem witness_AudioBlockArrivalOutcomes :
    let s := hearing { Aud.reset with portStart := some 0 } 9749
    let waits := fun head now => hearing { Aud.reset with
      play := .waiting, queue := [⟨head, 48, []⟩], portStart := some 0 } now
    let starved := hearing { Aud.reset with play := .starved } 9749
    blockBytes.length = 8 + 4 * 48 ∧ field blockBytes 6 2 = 48 ∧ field [0, 0, 0, 0, 0, 0, 47, 0] 6 2 < 48 ∧
      ([] : List Byte).length < 8 ∧ 480 < field [0, 0, 0, 0, 0, 0, 0xE1, 1] 6 2 ∧
      (∃ x ∈ (hearing { Aud.reset with queue := [aBlock] } 0).aud.queue,
        x.time = BitVec.ofNat 48 (field blockBytes 0 6)) ∧
      16 ≤ (hearing { Aud.reset with queue := List.replicate 16 ⟨1, 48, []⟩ } 0).aud.queue.length ∧
      (hearing { Aud.reset with play := .playing } 0).aud.play = .playing ∧
      (s.aud.queue = [] ∧ s.aud.play = .idle ∧ s.tas.now.toNat + 250 < aBlock.time.toNat ∧
        s.aud.portStart = some 0 ∧ 0 ≤ s.osc) ∧
      (starved.aud.queue = [] ∧ starved.aud.play = .starved) ∧
      ((waits 9999 0).aud.play = .waiting ∧ (waits 9999 0).aud.queue = ⟨9999, 48, []⟩ :: [] ∧
        (9999 : Time).toNat < aBlock.time.toNat ∧ aBlock.time.toNat < (20000 : Time).toNat ∧
        (waits 20000 9749).tas.now.toNat + 250 < aBlock.time.toNat ∧
        aBlock.time.toNat ≤ (waits 20000 9750).tas.now.toNat + 250 ∧
        (waits 20000 12000).tas.now.toNat ≤ aBlock.time.toNat + 2000 ∧
        aBlock.time.toNat + 2000 < (waits 20000 12001).tas.now.toNat ∧
        (waits 20000 12001).tas.now.toNat + 250 < (20000 : Time).toNat) ∧
      aBlock.time.toNat ≤ (9750 : Time).toNat + 250 ∧ (12000 : Time).toNat ≤ aBlock.time.toNat + 2000 ∧
      aBlock.time.toNat + 2000 < (12001 : Time).toNat := by decide +kernel

theorem witness_PlayoutStartsAndEnds :
    let waits := hearing { Aud.reset with play := .waiting, queue := [aBlock], portStart := some 0 } 0
    let ending := hearing { Aud.reset with play := .playing, current := some ⟨aBlock, 0, 0⟩ } 9750
    let next := fun now => hearing { Aud.reset with
      play := .playing, current := some ⟨aBlock, 0, 0⟩, queue := [aBlock] } now
    let two := fun second => hearing { Aud.reset with
      play := .playing, current := some ⟨aBlock, 0, 0⟩, queue := [aBlock, ⟨second, 48, []⟩] } 12001
    let head := fun now => hearing { Aud.reset with
      play := .waiting, queue := [aBlock], portStart := some 0 } now
    (waits.powered = true ∧ waits.aud.play = .waiting ∧ waits.aud.queue = aBlock :: [] ∧
        waits.tas.now.toNat ≤ aBlock.time.toNat) ∧
      (ending.aud.current = some ⟨aBlock, 0, 0⟩ ∧ ending.aud.play = .playing ∧ ending.aud.queue = []) ∧
      (next 0).aud.queue = aBlock :: [] ∧
      ((next 9749).advanceTo 0).tas.now.toNat + 250 < aBlock.time.toNat ∧
      aBlock.time.toNat ≤ ((next 9750).advanceTo 0).tas.now.toNat + 250 ∧
      ((next 12000).advanceTo 0).tas.now.toNat ≤ aBlock.time.toNat + 2000 ∧
      aBlock.time.toNat + 2000 < ((next 12001).advanceTo 0).tas.now.toNat ∧
      ((two 20000).aud.queue = aBlock :: [⟨20000, 48, []⟩] ∧
        ((two 20000).advanceTo 0).tas.now.toNat + 250 < (20000 : Time).toNat ∧
        (12251 : Time).toNat ≤ ((two 12251).advanceTo 0).tas.now.toNat + 250 ∧
        ((two 12251).advanceTo 0).tas.now.toNat ≤ (12251 : Time).toNat + 2000) ∧
      (State.reset.aud.play ≠ .waiting ∧ (head 9999).tas.now.toNat < aBlock.time.toNat ∧
        aBlock.time.toNat ≤ (head 10000).tas.now.toNat ∧
        (head 12000).tas.now.toNat ≤ aBlock.time.toNat + 2000 ∧
        aBlock.time.toNat + 2000 < (head 12001).tas.now.toNat ∧ (head 12001).aud.play = .waiting ∧
        (head 12001).aud.queue = aBlock :: []) := by decide +kernel

theorem witness_CaptureFramesGatherAndComplete :
    let off := State.reset.setAud { Aud.reset with portStart := some 0 }
    let on := fun p => State.reset.setAud { Aud.reset with
      portStart := some 0, capturing := true, framesPerBlock := 48, partialBlock := p }
    let full := State.reset.setAud { Aud.reset with
      captureQueue := List.replicate 8 ⟨0, 0, 48, 2, []⟩ }
    (off.powered = true ∧ off.aud.portStart = some 0 ∧ off.aud.capturing = false) ∧
      ((on none).aud.capturing = true ∧ (on none).aud.partialBlock = none ∧
        1 < (on none).aud.framesPerBlock) ∧
      ((on (some ⟨0, 46, []⟩)).aud.partialBlock = some ⟨0, 46, []⟩ ∧
        46 + 1 < (on (some ⟨0, 46, []⟩)).aud.framesPerBlock) ∧
      (on (some ⟨0, 47, []⟩)).aud.framesPerBlock ≤ 47 + 1 ∧
      (on (some ⟨0, 47, []⟩)).aud.captureQueue.length < 8 ∧ 8 ≤ full.aud.captureQueue.length := by
  decide +kernel

theorem witness_PowerRequestsApplied :
    let s := asked 0x59 0 [1, 0, 3, 0, 0, 232, 3]
    let rows := s.pmg.rows.set 1 ⟨768, 0, .hz1000⟩
    let bad := s.pmg.rows.set 1 ⟨511, 0, .hz1000⟩
    Stands (asked 0x58 0 [7]) 0x58 0 [7] ∧ State.reset.smp.presence = .active ∧
      (Stands s 0x59 0 [1, 0, 3, 0, 0, 232, 3] ∧ field [1, 0, 3, 0, 0, 232, 3] 0 1 = (1 : Fin 4).val ∧
        ∀ j k : Fin 4, j < k → rows[k].emissionCap ≤ rows[j].emissionCap ∧
          rows[j].minAttenuation ≤ rows[k].minAttenuation ∧ rows[k].maxRate.hz ≤ rows[j].maxRate.hz) ∧
      (¬ bad[(2 : Fin 4)].emissionCap ≤ bad[(1 : Fin 4)].emissionCap) ∧
      3 < field [4, 0, 3, 0, 0, 232, 3] 0 1 ∧
      (Stands (asked 0x5A 0 [127, 0, 0, 0, 0]) 0x5A 0 [127, 0, 0, 0, 0] ∧
        ([127, 0, 0, 0, 0] : List Byte).length = 5) ∧
      Stands (asked 0x5B 0 [0]) 0x5B 0 [0] := by decide +kernel

/-- R127: a scan below 10 500 mV changes the stage to 3, with an Attention report and then a STAGE report. -/
theorem test_power_report :
    let t := after (execRailScanEnd ⟨1049, 0, 0, 0, 0, 0, 0, 0⟩ State.reset)
    t.mge.reports.map Report.kind = [.attention, .power] ∧
      (t.mge.reports.map Report.fields).getD 1 [] =
        [1, 0, 0, 3, 3, 0] ++ pack16 t.emissionCap ++ pack16 4000 ++ pack32 0 ++ pack16 10490 ++
          packTime 1000 := by decide +kernel

/-- R77, R81, R122: the fourth low scan turns a ramp-up down, counts it, and answers its Panels On STATE. -/
theorem test_emergency_answers_panels_on :
    let s := (((panels .rampUp .off State.reset).setPmg { Pmg.reset with lowScans := 3, bs := 3, stage := 3 }).setMge
      { Mge.reset with inProgress := [⟨0x40, 7, .panels [.left] 1⟩] })
    let t := after (execRailScanEnd ⟨949, 0, 0, 0, 0, 0, 0, 0⟩ s)
    (t.panel .left).state = .rampDown ∧ (t.panel .left).counters.emergency = 1 ∧ t.mge.inProgress = [] ∧
      t.mge.replies = [⟨0, 0x40, 7, .state, [1, 4, 0]⟩] := by decide +kernel

theorem witness_RailScanJudges :
    let p := fun (w : Option PowerWindow) (below low : Nat) (e : Bool) =>
      ({ Pmg.reset with window := w, below := below, lowScans := low, emergency := e } : Pmg)
    let e : InProgress := ⟨0x40, 0, .panels [.left] 1⟩
    let up := ((panels .rampUp .off State.reset).setPmg (p none 0 3 false)).setMge
      { Mge.reset with inProgress := [e] }
    (State.reset.powered = true ∧ State.reset.mge.enables.power = true) ∧ (p none 0 0 false).window = none ∧
      ((p (some ⟨0, 62⟩) 0 0 false).window = some ⟨0, 62⟩ ∧
        62 + 1 < (p (some ⟨0, 62⟩) 0 0 false).windowLength) ∧
      (p (some ⟨0, 63⟩) 0 0 false).windowLength ≤ 63 + 1 ∧
      ((p none 0 0 false).contract < (64 * 4001) / 64 ∧ (64 * 4000) / 64 ≤ (p none 0 0 false).contract ∧
        (p none 0 0 false).contract ≤ 3500 + (p none 0 0 false).hysteresis ∧
        3499 + (p none 1 0 false).hysteresis < (p none 1 0 false).contract ∧ (p none 1 0 false).below = 1) ∧
      ((p none 0 0 true).emergency = true ∧ (p none 0 2 false).lowScans < 3 ∧
        (p none 0 3 false).lowScans = 3 ∧ (949 : BitVec 12).toNat < 950 ∧ 950 ≤ (950 : BitVec 12).toNat) ∧
      (up.powered = true ∧ up.pmg.emergency = false ∧ 3 ≤ up.pmg.lowScans ∧ (up.panel .left).state = .rampUp ∧
        (up.panel .right).state = .off ∧ up.mge.inProgress = [e] ∧ e.kind = 0x40 ∧ e.ramps .left = true ∧
        e.resource = .panels [.left] 1) := by decide +kernel

theorem witness_FrameReceptionOutcomes :
    let frame := tetherFrame 5 [1, 0x10, 7, 0, 1, 0, 1]
    let echoing := fun (q : List (List Byte)) (u : U0) => (receiving .control 0).setLnk
      { upLink with loopback := .running 9, echoQueue := q, u0 := u }
    let hits := fun (s : State) (i : Fin 8) =>
      s.cfl.entries[i].enabled && decide (5 &&& s.cfl.entries[i].mask = s.cfl.entries[i].value &&&
        s.cfl.entries[i].mask)
    (State.reset.powered = true ∧ State.reset.lnk.state ≠ .up) ∧
      (linked upLink).lnk.state = .up ∧ ([] : List Byte).length < 4 ∧
      (1 ≤ field frame 0 4 / 4096 ∧ field frame 0 4 / 4096 ≤ 24576 ∧
        frame.length = field frame 0 4 / 4096 + 8 ∧
        (crc32 (frame.take (field frame 0 4 / 4096 + 4))).toNat =
          field frame (field frame 0 4 / 4096 + 4) 4 ∧
        (crc32 (frame.take 5)).toNat ≠ field frame 5 4) ∧
      (∀ i, hits (linked upLink) i = false) ∧ hits (receiving .control 7) 0 = true ∧
      (receiving .discard 0).cfl.entries[(0 : Fin 8)].dest = .discard ∧
      (receiving .time 0).cfl.entries[(0 : Fin 8)].dest = .time ∧
      (receiving .pictureL 0).cfl.entries[(0 : Fin 8)].dest = .pictureL ∧
      (receiving .pictureR 0).cfl.entries[(0 : Fin 8)].dest = .pictureR ∧
      ((echoing [] .idle).lnk.suspended = true ∧ 4 ≤ (echoing [[], [], [], []] .idle).lnk.echoQueue.length ∧
          (echoing [[]] (.echo [] false 1)).lnk.echoQueue.length < 4 ∧
          (echoing [[]] (.echo [] false 1)).lnk.u0 ≠ .idle ∧
          (echoing [] .idle).lnk.echoQueue = [] ∧ (echoing [] .idle).lnk.u0 = .idle) ∧
      (receiving .audio 0).cfl.entries[(0 : Fin 8)].dest = .audio ∧
      ((receiving .control 7).lnk.suspended = false ∧ (receiving .control 7).mge.admitted < 8 ∧
        8 ≤ (receiving .control 8).mge.admitted ∧
        field ((frame.drop 4).take 7) 4 2 = ((frame.drop 4).take 7).length - 6 ∧
        ((frame.drop 4).take 7).headD 0 = 1) := by decide +kernel

theorem witness_TrainingBeginsOnSignal :
    let down := linked { Lnk.reset with loaded := true }
    let backing := linked { Lnk.reset with loaded := true, backoff := some 7500000, d0Signal := true }
    (down.powered = true ∧ down.lnk.state = .down ∧ down.lnk.backoff = none ∧ down.lnk.loaded = true) ∧
      State.reset.lnk.loaded = false ∧ (linked upLink).lnk.state ≠ .down ∧
      backing.lnk.backoff = some 7500000 ∧ backing.lnk.state = .down ∧ backing.lnk.d0Signal = true ∧
      down.lnk.d0Signal = false := by decide

theorem witness_TrainingCompletes :
    let s := linked { Lnk.reset with state := .train, locked := #v[true, false, false, false] }
    let held := linked { Lnk.reset with state := .train, heldWord := some fullWord }
    (s.powered = true ∧ s.lnk.state = .train ∧ s.lnk.locked[0] = true ∧ fullWord.half = true ∧
        fullWord.lanes ≠ 0) ∧
      (held.lnk.state = .train ∧ held.lnk.heldWord = some fullWord ∧ fullWord.lanes.toNat ≤ 4) ∧
      (0 : Lane) = 0 ∧ ({ fullWord with lanes := 0 } : HostWord).lanes = 0 ∧
      ({ fullWord with half := false, full := false } : HostWord).full = false := by decide

/-- R161, R70, R175: an entry to DOWN drops a reply, a motion report and the pending one, and a FILLING frame. -/
theorem test_down_counts_dropped :
    let s := ((linked { upLink with state := .recover, limit := some 9 }).setRch { Rch.reset with
      slots := #v[.occupied (aReply 0), .empty, .transmitting (.motion [1]), .empty], pendingMotion := some [2] }).setFri
        { Fri.reset with eyes := ⟨filling 8, Eye.reset⟩ }
    let t := after (execRecoveryLimitExpiry s)
    t.rch.dropped = ⟨1, 0, 2, 0⟩ ∧ t.fri.eyes.left.counters.torn = 1 ∧ t.mge.summary = 0x03 := by decide +kernel

theorem witness_LimitsTakeLinkDown :
    let train := linked { Lnk.reset with state := .train, limit := some 75000000 }
    let recover := linked { upLink with state := .recover, limit := some 7500000 }
    (train.powered = true ∧ train.lnk.limit = some 75000000 ∧ train.lnk.state = .train) ∧
      recover.powered = true ∧ recover.lnk.limit = some 7500000 ∧ recover.lnk.state = .recover ∧
      (Eye.reset.filling = none ∧ (filling 8).filling = some 0) := by decide +kernel

/-- R132: lanes lock in TRAIN, D0 last or not, and a host word is read on a locked D0 alone. -/
theorem test_lock_then_word :
    let s := linked { Lnk.reset with state := .train }
    let t := after (execLaneWordLock 0 (after (execLaneWordLock 2 s)))
    t.lnk.state = .train ∧ t.lnk.locked = #v[true, false, true, false] ∧
      (after (execHostAbilityWord fullWord s)).lnk.heldWord = none ∧
      (after (execHostAbilityWord fullWord t)).lnk.active = #v[true, false, true, false] := by decide +kernel

theorem witness_LockLossAndMarkers :
    let up := linked upLink
    let train := linked { Lnk.reset with state := .train }
    let quiet := linked { upLink with state := .quiet }
    let loud := linked { upLink with partner := some { fullWord with quiet := false } }
    (up.powered = true ∧ up.lnk.state = .up ∧ up.lnk.active[(3 : Fin 4)] = true ∧
        up.lnk.locked[(3 : Fin 4)] = true ∧ up.lnk.loopback = .none ∧ up.lnk.echoQueue = []) ∧
      (State.reset.lnk.active[(0 : Fin 4)] = false ∧ Lnk.reset.locked[(0 : Fin 4)] = false ∧
        (linked { upLink with state := .recover }).lnk.state ≠ .up ∧
        (linked { upLink with state := .recover }).lnk.state ≠ .quiet) ∧
      (up.lnk.partner = some fullWord ∧ fullWord.quiet = true) ∧
      loud.lnk.partner = some { fullWord with quiet := false } ∧ State.reset.lnk.state ≠ .up ∧
      quiet.lnk.state = .quiet ∧
      (train.lnk.state ≠ .down ∧ train.lnk.heldWord = none ∧ train.lnk.locked[0] = false ∧ (3 : Lane) ≠ 0 ∧
        State.reset.lnk.state = .down ∧ (linked { upLink with state := .recover }).lnk.wordArrived = false) := by
  decide

theorem witness_WindowEndGradesLanes :
    let s := fun (low tally : Nat) => linked { upLink with lowWindows := low, crcTally := tally }
    (s 3 4).powered = true ∧ (s 3 4).lnk.state = .up ∧ (s 3 4).lnk.windowEnd = some 384000 ∧
      (s 3 4).lnk.loopback = .none ∧ (s 3 4).lnk.echoQueue = [] ∧
      (s 3 4).lnk.active[(0 : Fin 4)] = true ∧ (s 3 4).lnk.quality.fallback < 7 ∧
      State.reset.lnk.active[(0 : Fin 4)] = false ∧ State.reset.lnk.rate ≠ some .full ∧
      4 ≤ (s 3 4).lnk.crcTally ∧ (s 3 3).lnk.crcTally < 4 ∧ (s 3 4).lnk.rate = some .full := by decide

/-- A request that stands on a part whose link is as given. -/
def askedOn (l : Lnk) (kind : Byte) (ps : List Byte) : State := (asked kind 0 ps).setLnk l

/-- R134: without a Link Retrain the lock of D0 completes a recovery whose word has come, on the lanes locked then. -/
theorem test_recovery_by_lock :
    let s := linked { upLink with
      state := .recover, target := .half, wordArrived := true, locked := #v[false, true, false, true] }
    let t := after (execLaneWordLock 0 s)
    t.lnk.state = .up ∧ t.lnk.rate = some .half ∧ t.lnk.active = #v[true, true, false, false] ∧
      t.lnk.grades = #v[7, 7, 0, 0] ∧ t.mge.replies = [] := by decide +kernel

theorem witness_LinkRetrainRecovers :
    let v : HostWord := { fullWord with full := false }
    let s := fun target => (linked { upLink with
      state := .recover, target := target, partner := some v }).setMge
        { Mge.reset with inProgress := [⟨0x63, 0, .link⟩] }
    let alone := linked { upLink with
      state := .recover, partner := some v, wordArrived := true, locked := Vector.replicate 4 false }
    (Stands (askedOn upLink 0x63 [1]) 0x63 0 [1] ∧ (askedOn upLink 0x63 [1]).lnk.state = .up ∧
        (askedOn upLink 0x63 [1]).lnk.loopback = .none ∧ (askedOn upLink 0x63 [1]).lnk.echoQueue = []) ∧
      (askedOn { upLink with state := .quiet } 0x63 [2]).lnk.state = .quiet ∧
      (askedOn { upLink with state := .recover } 0x63 [2]).lnk.state = .recover ∧
      (Stands (asked 0x63 0 [2]) 0x63 0 [2] ∧ (asked 0x63 0 [2]).lnk.state = .down) ∧
      (askedOn { upLink with loopback := .armed 1 0 } 0x63 [2]).lnk.loopback ≠ .none ∧
      (Stands (asked 0x63 0 [0]) 0x63 0 [0] ∧ (0 : Byte) ≠ 1 ∧ (0 : Byte) ≠ 2 ∧ (3 : Byte) ≠ 2) ∧
      ((s .half).powered = true ∧ (s .half).lnk.state = .recover ∧ (s .half).lnk.locked[0] = true ∧
        (s .half).lnk.partner = some v ∧ v.half = true ∧ (s .half).lnk.target = .half ∧
        v.lanes ≠ 0 ∧ (s .half).mge.inProgress = [⟨0x63, 0, .link⟩] ∧
        (s .half).mge.enables.link = true) ∧
      (alone.powered = true ∧ alone.lnk.state = .recover ∧ alone.lnk.partner = some v ∧
        alone.lnk.wordArrived = true ∧ ∀ e ∈ alone.mge.inProgress, e.resource ≠ .link) ∧
      (0 : Lane) = 0 ∧ (s .full).lnk.target = .full ∧ v.full = false := by decide +kernel

/-- R146: a frame that arrives in the very event of the loopback's end is queued and dropped, counted; an echo
whose sending began before goes on. -/
theorem test_echo_race :
    let l := fun arrived => { upLink with loopback := .running 48, u0 := .echo [1] arrived 72 }
    ((l true).endLoopback 48).u0 = .idle ∧ ((l true).endLoopback 48).counters.echoDrops = 1 ∧
      (l true).endLoopback 49 = { l true with loopback := .none } ∧
      (l false).endLoopback 48 = { l false with loopback := .none } := by decide +kernel

/-- R162: when the loopback ends on a free lane the OCCUPIED slot is granted at once. -/
theorem test_grant_after_loopback :
    let s := (linked { upLink with loopback := .running 48 }).setRch { Rch.reset with
      slots := #v[.occupied aReport, .occupied (aReply 0), .empty, .empty] }
    let t := after (execLoopbackTimerExpiry s)
    t.rch.slots[1] = .transmitting (aReply 0) ∧ t.lnk.u0 ≠ .idle ∧ t.lnk.loopback = .none := by decide +kernel

theorem witness_LoopbackArmsRunsEnds :
    let train := { upLink with state := .train, u0 := .echo [1] false 24 }
    let s := fun q => linked { upLink with
      loopback := .running 750000, u0 := .echo [1] false 24, echoQueue := q }
    (Stands (askedOn upLink 0x64 [0]) 0x64 0 [0] ∧ (askedOn upLink 0x64 [61]).lnk.loopback = .none ∧
        (askedOn upLink 0x64 [61]).lnk.state = .up) ∧
      (askedOn { upLink with loopback := .running 1 } 0x64 [1]).lnk.loopback ≠ .none ∧
      (askedOn { upLink with state := .recover } 0x64 [1]).lnk.state = .recover ∧
      (askedOn { upLink with state := .quiet } 0x64 [1]).lnk.state = .quiet ∧
      ({ upLink with u0 := .echo [1] true 24 }.u0 = .echo [1] true 24 ∧
        0 + ([1] : List Byte).length * 24 ≤ 24 ∧ 24 < 1 + ([1] : List Byte).length * 24) ∧
      ((s []).powered = true ∧ (s []).lnk.loopback = .running 750000 ∧
        (s []).lnk.u0 = .echo [1] false 24 ∧ (s []).lnk.suspended = true ∧
        (s []).lnk.echoQueue = [] ∧ (s [[2]]).lnk.echoQueue = [2] :: []) ∧
      (linked { upLink with u0 := .echo [1] false 24 }).lnk.suspended = false ∧
      upLink.state ≠ .train ∧
      ((linked train).powered = true ∧ (linked train).lnk.u0 = .echo [1] false 24 ∧
        (linked train).lnk.suspended = false ∧ (linked train).lnk.state = .train ∧
        (((linked train).setLnk { train with u0 := .idle }).arbitrate).lnk.u0 = .idle) := by decide +kernel

/-- The default thresholds as a Set Link Quality carries them, with the first as given. -/
def thresholdBytes (first : Byte) : List Byte :=
  [0, 2, first, 0, 80, 0, 64, 0, 50, 0, 40, 0, 32, 0, 25, 0, 4, 2]

theorem witness_LinkRequestsApplied :
    (Stands (askedOn upLink 0x60 []) 0x60 0 [] ∧ (askedOn upLink 0x60 []).lnk.partner = some fullWord) ∧
      (Stands (asked 0x60 0 []) 0x60 0 [] ∧ (asked 0x60 0 []).lnk.partner = none) ∧
      Stands (asked 0x61 0 [1]) 0x61 0 [1] ∧
      (Stands (asked 0x62 0 (thresholdBytes 81)) 0x62 0 (thresholdBytes 81) ∧
        (thresholdBytes 81).length = 18 ∧
        (∀ i : Fin 7, field (thresholdBytes 81) (2 + 2 * i.val) 2 ≤ 1023) ∧
        ∀ i j : Fin 7, i < j → field (thresholdBytes 81) (2 + 2 * j.val) 2 <
          field (thresholdBytes 81) (2 + 2 * i.val) 2) ∧
      ¬ field (thresholdBytes 80) 4 2 < field (thresholdBytes 80) 2 2 := by decide +kernel

theorem witness_ChannelAndEngineRequests :
    let ps : List Byte := [7, 1, 0, 0, 0xFF, 0x0F, 0]
    let es := (asked 0x68 0 ps).cfl.entries.set 7 ⟨true, 0, 0xFFF, .control, 0⟩
    (Stands (asked 0x68 0 ps) 0x68 0 ps ∧ ps.length = 7 ∧ field ps 0 1 = (7 : Fin 8).val ∧
        field ps 2 2 ≤ 0xFFF ∧ field ps 4 2 ≤ 0xFFF ∧ destinationOfCode (field ps 6 1) = some .control ∧
        es[(7 : Fin 8)].enabled = true ∧ es[(7 : Fin 8)].dest = .control) ∧
      (∀ j : Fin 8, ¬ ((Cfl.reset.entries.set 7 ⟨false, 0, 0xFFF, .control, 0⟩)[j].enabled = true)) ∧
      (7 < field [8, 1, 0, 0, 0, 0, 0] 0 1 ∧ 0xFFF < field [0, 1, 0, 0x10, 0, 0, 0] 2 2 ∧
        destinationOfCode 6 = none) ∧
      Stands (asked 0x69 0 [0]) 0x69 0 [0] ∧
      (Stands (asked 0x6A 0 [3, 0, 3, 0]) 0x6A 0 [3, 0, 3, 0] ∧ (3 : Byte).toNat ≤ 3 ∧ 3 < (4 : Byte).toNat) ∧
      Stands (asked 0x6B 0 [1]) 0x6B 0 [1] ∧ Stands (asked 0x70 0 []) 0x70 0 [] ∧
      Stands (asked 0x71 0 [0]) 0x71 0 [0] ∧ Stands (asked 0x72 0 [0]) 0x72 0 [0] ∧
      Stands (asked 0x73 0 [1, 0, 1, 0, 255, 0]) 0x73 0 [1, 0, 1, 0, 255, 0] ∧
      (bitTime &&& ~~~State.reset.mge.summary &&& State.reset.mge.mask ≠ 0 ∧
        State.reset.mge.outstanding = false ∧ (0 : BitVec 8) &&& ~~~State.reset.mge.summary &&& 0xFF = 0) := by decide +kernel

theorem witness_FunctionClearsClearTheirArea (b : Byte) :
    Stands (asked 0x74 0 [b]) 0x74 0 [b] ∧ 5 < (6 : Byte).toNat ∧
      ((filling 0).slots[(0 : Fin 3)].state ≠ .scanning) ∧
      ({ FrameSlot.freed with state := .scanning } : FrameSlot).state = .scanning :=
  ⟨⟨rfl, rfl⟩, by decide, by decide, rfl⟩

/-- R173, R178, R149: a Hub Reset that takes effect during an erase is owed its load, and ends a loopback still ARMED. -/
theorem test_reset_during_erase :
    let s := (((linked { upLink with u0 := .slot 0 [] 336, loopback := .armed 1 5 }).setRch { Rch.reset with
      slots := #v[.transmitting (aReply 0), .empty, .empty, .empty] }).setCst
      { Cst.reset with op := .erasing 7 15000000 }).setMge { Mge.reset with
        admitted := 1, inProgress := [⟨0x75, 0, .reset 0⟩] }
    let t := after (execTransmissionComplete s)
    t.cst.op = .erasing 7 15000000 ∧ t.cst.loadOwed = true ∧ t.lnk.loopback = .none ∧ t.lnk.u0 = .idle := by
  decide +kernel

theorem witness_HubResetTakesEffectWhenSent :
    let idle := (asked 0x75 0 []).setCst { Cst.reset with op := .idle }
    let r : Reply := ⟨0, 0x75, 0, .done, []⟩
    let s := (((linked { upLink with u0 := .slot 2 [] 336 }).setRch { Rch.reset with
      slots := #v[.empty, .empty, .transmitting (.reply r), .empty] }).setCst
      { Cst.reset with op := .idle }).setMge { Mge.reset with
        admitted := 1, inProgress := [⟨0x75, 0, .reset 0⟩] }
    (Stands idle 0x75 0 [] ∧ idle.cst.op = .idle ∧ idle.mge.inProgress = []) ∧
      (Stands (asked 0x75 0 []) 0x75 0 [] ∧ (asked 0x75 0 []).cst.op ≠ .idle) ∧
      (s.powered = true ∧ s.lnk.u0 = .slot 2 [] 336 ∧
        s.rch.slots[(2 : Fin 4)] = .transmitting (.reply r) ∧
        (∃ e ∈ s.mge.inProgress, e.resource = .reset r.serial) ∧ s.lnk.loopback = .none ∧
        s.lnk.state ≠ .train ∧ s.lnk.suspended = false) ∧
      ({ Cst.reset with op := .programming 0 0 [1] 9 }.op = .programming 0 0 [1] 9) ∧
      ({ upLink with loopback := .armed 1 5 }.loopback ≠ .armed 1 r.serial) ∧
      ({ upLink with loopback := .running 9, echoQueue := [[2]] }.suspended = true) ∧
      { upLink with loopback := .running 9, echoQueue := [[2]] }.echoQueue = [2] :: [] := by decide +kernel

/-- The ability word the part sends with its built-in power request and user byte. -/
def offered : PartWord := ⟨true, true, 4, true, 40, 0⟩

/-- U0 in an ability word, slots 1 and 3 OCCUPIED by a report and a reply. -/
def contending : State :=
  (linked { upLink with state := .train, u0 := .abilityWord offered 192 }).setRch { Rch.reset with
    slots := #v[.empty, .occupied aReport, .empty, .occupied (aReply 0)] }

/-- R156, R159: REPLY is placed before REPORT; a second motion report takes the place of the first, counted. -/
theorem test_fill_and_supersede :
    let s := (linked upLink).setMge { Mge.reset with
      replies := [⟨0, 0x70, 0, .done, []⟩], reports := [⟨.link, []⟩] }
    let m := (linked upLink).setRch { Rch.reset with
      slots := #v[.occupied (.motion [1]), .empty, .empty, .empty] }
    s.fill.rch.slots = #v[.occupied (aReply 0), .occupied aReport, .empty, .empty] ∧
      (m.offerMotion [2]).rch.slots[0] = .occupied (.motion [2]) ∧
      (m.offerMotion [2]).rch.superseded = 1 := by decide +kernel

theorem witness_FreeLaneGrantsBestSlot :
    let quietSlots := linked { upLink with u0 := .abilityWord offered 192 }
    let waiting := (linked upLink).setMge { Mge.reset with
      replies := [⟨0, 0x70, 0, .done, []⟩], reports := [⟨.link, []⟩] }
    let motion := fun x : TxSlot => (linked upLink).setRch { Rch.reset with
      slots := #v[.empty, x, .empty, .empty] }
    let free := contending.setLnk { contending.lnk with u0 := .idle }
    let echoing := fun q => linked { upLink with
      loopback := .running 9, u0 := .abilityWord offered 192, echoQueue := q }
    (waiting.lnk.state ≠ .down ∧ waiting.rch.slots[(0 : Fin 4)] = .empty ∧
        waiting.waiting .reply = some (aReply 0) ∧ waiting.waiting .report = some aReport ∧
        waiting.waiting .motion = none ∧ waiting.waiting .capture = none ∧
        waiting.rch.holding .reply < ItemClass.limit .reply ∧
        waiting.rch.priority.get .reply < waiting.rch.priority.get .report) ∧
      ((∀ c, (linked upLink).waiting c = none) ∧
        (motion .empty).rch.slots[(1 : Fin 4)].item = none ∧
        (motion (.occupied (.motion [1]))).rch.slots[(1 : Fin 4)] = .occupied (.motion [1]) ∧
        (motion (.transmitting (.motion [1]))).rch.slots[(1 : Fin 4)] = .transmitting (.motion [1]) ∧
        ∀ j : Fin 4, j ≠ 1 → (motion (.occupied (.motion [1]))).rch.slots[j].item = none) ∧
      (contending.powered = true ∧ contending.lnk.u0 = .abilityWord offered 192 ∧
        contending.lnk.state ≠ .down ∧ contending.lnk.suspended = false ∧
        contending.rch.slots[(3 : Fin 4)] = .occupied (aReply 0) ∧
        contending.rch.slots[(1 : Fin 4)] = .occupied aReport ∧
        contending.rch.priority.get (aReply 0).itemClass < contending.rch.priority.get aReport.itemClass) ∧
      (quietSlots.lnk.u0 = .abilityWord offered 192 ∧ (∀ i : Fin 4, quietSlots.rch.slots[i] = .empty) ∧
        quietSlots.lnk.state ≠ .train ∧ quietSlots.lnk.suspended = false) ∧
      (free.lnk.state ≠ .down ∧ free.lnk.u0 = .idle ∧ free.lnk.suspended = false ∧
        free.rch.slots[(3 : Fin 4)] = .occupied (aReply 0)) ∧
      ((linked { upLink with state := .train, u0 := .abilityWord offered 192 }).lnk.state = .train) ∧
      (echoing [[2]]).lnk.suspended = true ∧ (echoing [[2]]).lnk.echoQueue = [2] :: [] ∧
      (echoing []).lnk.echoQueue = [] :=
  ⟨⟨by decide, rfl, rfl, rfl, rfl, rfl, by decide +kernel, by decide⟩,
    ⟨fun c => by cases c <;> rfl, rfl, rfl, rfl, by decide +kernel⟩, by decide +kernel, by decide +kernel,
    by decide +kernel, rfl, rfl, rfl, rfl⟩

/-- R157: a completion fills its slot with the waiting report and grants the lane to the waiting reply's slot. -/
theorem test_completion_fills_and_grants :
    let s := ((linked { upLink with u0 := .slot 0 [] 336 }).setRch { Rch.reset with
      slots := #v[.transmitting aReport, .occupied aReport, .occupied (.motion [1]), .occupied (aReply 0)] }).setMge
        { Mge.reset with reports := [⟨.power, []⟩] }
    let t := after (execTransmissionComplete s)
    t.rch.slots = #v[.occupied (.report ⟨.power, []⟩), .occupied aReport, .occupied (.motion [1]),
      .transmitting (aReply 0)] ∧ t.rch.sent = ⟨0, 1, 0, 0⟩ := by decide +kernel

theorem witness_TransmissionCompletes :
    let s := fun (l : Lnk) item => (linked { l with u0 := .slot 0 [] 336 }).setRch { Rch.reset with
      slots := #v[.transmitting item, .empty, .empty, .empty] }
    let armed := fun q => s { upLink with loopback := .armed 60 4, echoQueue := q } (aReply 4)
    let sending := s upLink aReport
    (sending.powered = true ∧ sending.lnk.u0 = .slot 0 [] 336 ∧
        sending.rch.slots[(0 : Fin 4)] = .transmitting aReport ∧ sending.lnk.suspended = false ∧
        sending.lnk.state ≠ .train ∧ ∀ r, aReport ≠ .reply r) ∧
      ((s upLink (aReply 4)).mge.inProgress = [] ∧ (s upLink (aReply 4)).lnk.loopback = .none) ∧
      (s { upLink with state := .train } (aReply 4)).lnk.state = .train ∧
      ((armed []).lnk.loopback = .armed 60 4 ∧ (armed []).lnk.echoQueue = []) ∧
      (armed [[2]]).lnk.echoQueue = [2] :: [] :=
  ⟨⟨rfl, rfl, rfl, rfl, by decide, fun _ h => nomatch h⟩, ⟨rfl, rfl⟩, rfl, ⟨rfl, rfl⟩, rfl⟩

/-- A request that stands on a part whose store is as given. -/
def askedOf (c : Cst) (kind : Byte) (ps : List Byte) : State := (asked kind 0 ps).setCst c

theorem witness_StoreRequestsChecked :
    let idle := { Cst.reset with op := .idle, boundary := 7 }
    let written := { idle with array := [(8191, 0)] }
    (Stands (askedOf idle 0x78 [7]) 0x78 0 [7] ∧ idle.op = .idle ∧ idle.boundary ≤ field [7] 0 1 ∧
        field [6] 0 1 < idle.boundary ∧ 7 < field [8] 0 1 ∧ Cst.reset.op ≠ .idle) ∧
      (Stands (askedOf idle 0x79 [7, 0xFF, 3, 1, 0]) 0x79 0 [7, 0xFF, 3, 1, 0] ∧
        ([7, 0xFF, 3, 1, 0] : List Byte).length = 4 + field [7, 0xFF, 3, 1, 0] 3 1 ∧
        field [7, 0xFF, 3, 1, 0] 1 2 + 1 ≤ 1024 ∧ (∀ n < 1, storeRead idle.array (7 * 1024 + 1023 + n) = 0xFF) ∧
        ∃ n < 1, storeRead written.array (7 * 1024 + 1023 + n) ≠ 0xFF) ∧
      (Stands (askedOf idle 0x7A [7, 0, 3, 0, 1]) 0x7A 0 [7, 0, 3, 0, 1] ∧
        field [7, 0, 3, 0, 1] 3 2 ≤ 256 ∧ field [7, 0, 3, 0, 1] 1 2 + 256 ≤ 1024 ∧
        1024 < field [7, 1, 3, 0, 1] 1 2 + 256) ∧
      Stands (askedOf idle 0x7B [0]) 0x7B 0 [0] ∧
      (Stands (askedOf idle 0x7C [8]) 0x7C 0 [8] ∧ field [8] 0 1 ≤ 8 ∧ 8 < field [9] 0 1) ∧
      Stands (askedOf Cst.reset 0x7D [1]) 0x7D 0 [1] := by decide +kernel

/-- R173: a program that ends after a Hub Reset forms no reply, and the load it owes begins. -/
theorem test_owed_load :
    let s := State.reset.setCst { Cst.reset with op := .programming 0 1023 [0] 750000, loadOwed := true }
    let t := after (execProgramEnd s)
    t.cst.op = .loading (750000 + ms 5) ∧ t.cst.loadOwed = false ∧ t.mge.replies = [] ∧
      storeRead t.cst.array 1023 = 0 := by decide +kernel

theorem witness_StoreOperationsEnd :
    let with' := fun (c : Cst) (l : List InProgress) =>
      (State.reset.setCst c).setMge { Mge.reset with inProgress := l }
    let erasing := { Cst.reset with op := .erasing 7 15000000 }
    let programming := { Cst.reset with op := .programming 0 1023 [0] 750000, loadOwed := true }
    ((with' erasing [⟨0x78, 0, .store⟩]).powered = true ∧ erasing.op = .erasing (7 : Fin 8).val 15000000 ∧
        (with' erasing [⟨0x78, 0, .store⟩]).mge.inProgress = [⟨0x78, 0, .store⟩]) ∧
      (storeWf programming.array = true ∧ programming.op = .programming (0 : Fin 8).val 1023 [0] 750000 ∧
        1023 + ([0] : List Byte).length ≤ 1024 ∧
        (with' programming [⟨0x79, 0, .store⟩]).mge.inProgress = [⟨0x79, 0, .store⟩]) ∧
      ∀ p ∈ (with' programming []).mge.inProgress, p.resource ≠ .store := by
  decide +kernel

/-- One microsecond that passes on a part with an erase in progress. -/
theorem witness_ProtectedPagesNeverChange :
    let s := State.reset.setCst { Cst.reset with boundary := 7, op := .erasing 7 15000000 }
    s.cst.opHeld ∧ step s = .next s.idle ∧ s.pending.head? ≠ some .storeLoadEnd ∧
      s.pending.head? ≠ some .powerOnReset :=
  ⟨⟨by decide, by decide⟩, rfl, by decide, by decide⟩

/-- The state after reset is within every bound, and a step leads on from it. -/
theorem witness_EveryStepKeepsBounds : State.reset.Bounded ∧ step State.reset = .next State.reset.idle :=
  ⟨⟨⟨by decide, by decide, by decide, .nil⟩, ⟨by decide, by decide⟩, .nil, ⟨by decide, by decide, rfl⟩,
    fun p => by cases p <;> (unfold Eye.slotsOk; decide +kernel), ⟨by decide, by decide⟩,
    ⟨by decide, by decide, by decide⟩, by unfold Pmg.rowsHeld; decide +kernel, by decide, rfl, trivial⟩, rfl⟩

theorem witness_EveryStepKeepsAdmissionCount :
    (asked 0x10 0 [0]).admissionHeld ∧ step (asked 0x10 0 [0]) = .next (asked 0x10 0 [0]).idle :=
  ⟨⟨by decide, by decide⟩, rfl⟩

theorem witness_EveryStepKeepsTransmitSlots :
    State.reset.slotsHeld ∧ step State.reset = .next State.reset.idle ∧
      (linked upLink).slotsHeld ∧ step (linked upLink) = .next (linked upLink).idle :=
  ⟨⟨fun c => by cases c <;> decide,
      fun i => ⟨fun ⟨_, h⟩ => absurd h (by fin_cases i <;> exact nofun), fun ⟨_, _, h⟩ => nomatch h⟩,
      fun _ => ⟨rfl, by decide⟩, fun h => absurd rfl h⟩, rfl,
    ⟨fun c => by cases c <;> decide,
      fun i => ⟨fun ⟨_, h⟩ => absurd h (by fin_cases i <;> exact nofun), fun ⟨_, _, h⟩ => nomatch h⟩,
      fun h => absurd h (by decide),
      fun _ => ⟨fun c h => absurd (by cases c <;> rfl) h, fun _ _ i _ h => absurd h (by fin_cases i <;> exact nofun)⟩⟩,
    rfl⟩

end Sys2Proof.Tests
end

section
/-! Tether Time and timed actions: Read Time (R7), Cancel Action (R17) and List Actions (R18). -/

namespace Sys2Proof.Machine

/-! ## What a request's dispatch and its reply leave unchanged -/

@[simp] theorem State.popRequest_outgoingReports (s : State) :
    s.popRequest.outgoingReports = s.outgoingReports := rfl
@[simp] theorem State.removeAction_outgoingReports (s : State) (id : Byte) :
    (s.removeAction id).outgoingReports = s.outgoingReports := rfl

/-- Forming a reply neither forms nor drops a report. -/
theorem State.mem_formReply_outgoingReports {s : State} {kind tag : Byte} {st : Status} {f : List Byte}
    {r : Report} : r ∈ (s.formReply kind tag st f).outgoingReports ↔ r ∈ s.outgoingReports := by
  rw [mem_outgoingReports, mem_outgoingReports, State.formReply_items]
  simp

/-- An immediate row's reports on their way are those of its owner's answer. -/
theorem State.immediate_outgoingReports {s x t : State} {k tag : Byte} {ps fields : List Byte} {st : Status}
    {owner : List Byte → State → Answer} (h : Stands s k tag ps)
    (ha : owner ps s.popRequest = ⟨st, fields, x⟩) (ht : s.immediate k tag ps owner = .next t)
    {r : Report} : r ∈ t.outgoingReports ↔ r ∈ x.outgoingReports := by
  rw [State.immediate_of_stands h, ha] at ht
  cases ht
  exact State.mem_formReply_outgoingReports

/-! ## Read Time (R7) -/

theorem exec_readTime (tag : Byte) (ps : List Byte) (s : State) :
    exec (.readTime tag ps) s = s.immediate 0x10 tag ps readTime := rfl

/-- A flag byte counts as set just when it is not 0. -/
theorem flagField_one (b : Byte) : flagField [b] 0 = true ↔ b ≠ 0 := by
  rw [flagField, field_one, bne_iff_ne]
  exact (BitVec.toNat_ne (x := b) (y := 0)).symm

/-- The answer is formed from the fields before the clear, which leaves `now` and `valid` as they are. -/
theorem readTime_eq (b : Byte) (s : State) :
    readTime [b] s = ⟨.done, s.tas.fields, s.setTas (if b = 0 then s.tas else s.tas.clearCounters)⟩ := by
  by_cases hb : b = 0
  · subst hb
    rfl
  · rw [if_neg hb]
    simp [readTime, (flagField_one b).mpr hb]

/-- Settles O11: the answer `readTime_eq` gives, sent as the reply. -/
theorem readTimeAnswersAndClears : Obligations.ReadTimeAnswersAndClears := by
  intro tag b s h
  rw [exec_readTime]
  exact State.immediate_answers h (readTime_eq b s.popRequest) rfl

/-! ## Cancel Action (R17) -/

theorem exec_cancelAction (tag : Byte) (ps : List Byte) (s : State) :
    exec (.cancelAction tag ps) s = s.immediate 0x12 tag ps cancelAction := rfl

/-- An entry with the id is in the table: it is removed. -/
theorem cancelAction_found {id : Byte} {s : State} (h : ∃ e ∈ s.tas.table, e.id = id) :
    cancelAction [id] s =
      ⟨.done, [id] ++ pack8 (s.removeAction id).tas.table.length, s.removeAction id⟩ := by
  have hany : (s.tas.table.any fun e => decide (e.id = id)) = true := by simpa using h
  simp [cancelAction, hany]

/-- No entry has the id: nothing changes. -/
theorem cancelAction_notFound {id : Byte} {s : State} (h : ∀ e ∈ s.tas.table, e.id ≠ id) :
    cancelAction [id] s = ⟨.notFound, [id] ++ pack8 s.tas.table.length, s⟩ := by
  have hany : (s.tas.table.any fun e => decide (e.id = id)) = false := by simpa using h
  simp [cancelAction, hany]

/-- Settles O14, by whether the id is in the table. Neither answer's state has a report that was not on its way
before, and its reply adds none. -/
theorem cancelActionRemovesEntry : Obligations.CancelActionRemovesEntry := by
  intro tag id s h
  simp only [exec_cancelAction]
  constructor
  · intro hin
    have ha := cancelAction_found (s := s.popRequest) hin
    obtain ⟨t, ht, honly, hans⟩ := State.immediate_answers h ha rfl
    refine ⟨t, ht, honly, fun r hr _ => ?_, hans⟩
    simpa using (State.immediate_outgoingReports h ha ht).mp hr
  · intro hout
    have ha := cancelAction_notFound (s := s.popRequest) hout
    obtain ⟨t, ht, honly, hans⟩ := State.immediate_answers h ha rfl
    refine ⟨t, ht, honly, fun r hr => ?_, hans⟩
    simpa using (State.immediate_outgoingReports h ha ht).mp hr

/-! ## List Actions (R18) -/

theorem exec_listActions (tag : Byte) (ps : List Byte) (s : State) :
    exec (.listActions tag ps) s = s.immediate 0x13 tag ps listActions := rfl

theorem listActions_eq (s : State) :
    listActions [] s = ⟨.done, packTime s.tas.now ++ pack8 s.tas.table.length ++
      (s.tas.table.map Action.fields).flatten, s⟩ := rfl

/-- A TIMED entry is described with group 0. -/
theorem Action.fields_timed (id : Byte) (d : Time) (k : ActionKind) (ps : List Byte) :
    Action.fields ⟨id, .timed d, k, ps⟩ = [id] ++ (pack8 1 ++ packTime d ++ pack8 0) ++ [k.code] := by
  simp [Action.fields, Trigger.code, Trigger.due, Trigger.group]

/-- A GROUPED entry is described with due time 0. -/
theorem Action.fields_grouped (id : Byte) (g : Nat) (k : ActionKind) (ps : List Byte) :
    Action.fields ⟨id, .grouped g, k, ps⟩ = [id] ++ (pack8 2 ++ packTime 0 ++ pack8 g) ++ [k.code] := by
  simp [Action.fields, Trigger.code, Trigger.due, Trigger.group]

/-- A TIMED_GROUPED entry is described with its due time and its group. -/
theorem Action.fields_timedGrouped (id : Byte) (d : Time) (g : Nat) (k : ActionKind) (ps : List Byte) :
    Action.fields ⟨id, .timedGrouped d g, k, ps⟩ =
      [id] ++ (pack8 3 ++ packTime d ++ pack8 g) ++ [k.code] := by
  simp [Action.fields, Trigger.code, Trigger.due, Trigger.group]

/-- Settles O15: the reply's descriptions are those of the entries, form by form. -/
theorem listActionsReturnsTable : Obligations.ListActionsReturnsTable := by
  intro tag s h
  rw [exec_listActions]
  refine State.immediate_answers h ((listActions_eq s.popRequest).trans ?_) rfl
  congr 3
  refine List.map_congr_left fun e _ => ?_
  obtain ⟨id, tr, k, ps⟩ := e
  cases tr with
  | timed d => exact (Action.fields_timed id d k ps).symm
  | grouped g => exact (Action.fields_grouped id g k ps).symm
  | timedGrouped d g => exact (Action.fields_timedGrouped id d g k ps).symm

end Sys2Proof.Machine
end

section
/-! What every step keeps: the bounds of the manual, the protected pages of the store, the admission account and
the transmit slots' rules. `Keeps` joins them in one relation, so that each operation of the model is gone through
once. Here: the relation, the updates of single blocks, and the operations on messages. -/

namespace Sys2Proof.Machine

/-! ## The relation -/

/-- The bounds of the manual but for the emission cap, which an operation may pass on its way. -/
structure State.Uncapped (s : State) : Prop where
  queues : s.queuesBounded
  table : s.tas.tableOk
  order : s.tas.tableOrdered
  rings : s.ringsBounded
  eyes : ∀ p, (s.fri.eyes.get p).slotsOk
  power : s.pmg.held
  rows : s.pmg.rowsHeld
  level : s.aud.requestedAtt ≤ 255
  store : storeWf s.cst.array = true
  op : s.cst.opHeld

theorem State.bounded_iff (s : State) : s.Bounded ↔ s.Uncapped ∧ s.capHeld :=
  ⟨fun h => ⟨⟨h.queues, h.table, h.order, h.rings, h.eyes, h.power, h.rows, h.level, h.store, h.op⟩, h.cap⟩,
    fun ⟨h, c⟩ => ⟨h.queues, h.table, h.order, h.rings, h.eyes, c, h.power, h.rows, h.level, h.store, h.op⟩⟩

/-- Between loads: the boundary does not fall, no byte below it changes, and an operation stays above it. -/
def Cst.Protects (c d : Cst) : Prop :=
  c.opHeld → d.opHeld ∧ c.boundary ≤ d.boundary ∧
    ∀ a, a / 1024 < c.boundary → storeRead d.array a = storeRead c.array a

theorem Cst.Protects.refl (c : Cst) : c.Protects c := fun h => ⟨h, Nat.le_refl _, fun _ _ => rfl⟩

theorem Cst.Protects.trans {c d e : Cst} (h : c.Protects d) (k : d.Protects e) : c.Protects e := fun hc => by
  obtain ⟨hd, hb, ha⟩ := h hc
  obtain ⟨he, kb, ka⟩ := k hd
  exact ⟨he, hb.trans kb, fun a hl => (ka a (Nat.lt_of_lt_of_le hl hb)).trans (ha a hl)⟩

/-- The admission account with `d` requests taken from the Request Queue that are yet to be answered. -/
def State.owes (s : State) (d : Nat) : Prop :=
  s.mge.admitted = s.mge.requests.length + (s.mge.inProgress.filter fun e => !e.resets).length +
      s.outgoing.length + d ∧
    s.mge.admitted ≤ 8

theorem State.admissionHeld_iff (s : State) : s.admissionHeld ↔ s.owes 0 := Iff.rfl

/-- What an operation keeps on its way, `m` requests being unanswered before it and `n` after it; the emission cap
and the transmit slots' rules aside. -/
structure Lax (m n : Nat) (s t : State) : Prop where
  pending : t.pending = s.pending
  store : s.cst.Protects t.cst
  bounds : s.Uncapped → t.Uncapped
  account : ∀ d, s.owes (d + m) → t.owes (d + n)

/-- What an operation keeps. -/
structure Keeps (m n : Nat) (s t : State) : Prop extends Lax m n s t where
  cap : s.capHeld → t.capHeld
  slots : s.slotsHeld → t.slotsHeld

theorem Lax.refl (m : Nat) (s : State) : Lax m m s s := ⟨rfl, .refl _, id, fun _ => id⟩

theorem Lax.trans {m n k : Nat} {s t u : State} (h : Lax m n s t) (g : Lax n k t u) : Lax m k s u :=
  ⟨g.pending.trans h.pending, h.store.trans g.store, g.bounds ∘ h.bounds, fun d => g.account d ∘ h.account d⟩

theorem Keeps.refl (m : Nat) (s : State) : Keeps m m s s := ⟨.refl m s, id, id⟩

theorem Keeps.trans {m n k : Nat} {s t u : State} (h : Keeps m n s t) (g : Keeps n k t u) : Keeps m k s u :=
  ⟨h.toLax.trans g.toLax, g.cap ∘ h.cap, g.slots ∘ h.slots⟩

/-- What is kept with every request answered is kept with some unanswered. -/
theorem Lax.lift {m n : Nat} {s t : State} (h : Lax m n s t) (k : Nat) : Lax (m + k) (n + k) s t :=
  ⟨h.pending, h.store, h.bounds, fun d => by
    have := h.account (d + k)
    rwa [show d + k + m = d + (m + k) by omega, show d + k + n = d + (n + k) by omega] at this⟩

theorem Lax.quiet {s t : State} (h : Lax 0 0 s t) (k : Nat) : Lax k k s t := by
  have := h.lift k
  rwa [Nat.zero_add] at this

theorem Keeps.lift {m n : Nat} {s t : State} (h : Keeps m n s t) (k : Nat) : Keeps (m + k) (n + k) s t :=
  ⟨h.toLax.lift k, h.cap, h.slots⟩

theorem Keeps.lift₁ {s t : State} (h : Keeps 0 0 s t) : Keeps 1 1 s t := h.lift 1

/-- A branch keeps what both its ways keep. -/
theorem Keeps.ite {m n : Nat} {s t u : State} {p : Prop} [Decidable p] (ht : p → Keeps m n s t)
    (hu : ¬ p → Keeps m n s u) : Keeps m n s (if p then t else u) := by
  split
  · exact ht ‹_›
  · exact hu ‹_›

/-! ## The transmit slots' rules, one by one -/

/-- The rules that hold also while a fill or an arbitration is still to be made. -/
def State.slotsRuled (s : State) : Prop :=
  s.rch.limitsHold ∧
    (∀ i : Fin 4, (∃ item, s.rch.slots[i] = .transmitting item) ↔ ∃ f e, s.lnk.u0 = .slot i f e) ∧
    (s.lnk.state = .down → s.lnk.u0 = .idle ∧ ∀ i : Fin 4, s.rch.slots[i] = .empty)

/-- A fill has been made. -/
def State.slotsFilled (s : State) : Prop :=
  s.lnk.state ≠ .down → ∀ c, s.waiting c ≠ none → s.rch.holding c < c.limit →
    ∀ i : Fin 4, s.rch.slots[i] ≠ .empty

/-- An arbitration has been made. -/
def State.slotsGranted (s : State) : Prop :=
  s.lnk.state ≠ .down → s.lnk.u0 = .idle → s.lnk.suspended = false →
    ∀ (i : Fin 4) (item : Item), s.rch.slots[i] ≠ .occupied item

theorem State.slotsHeld_iff (s : State) :
    s.slotsHeld ↔ s.slotsRuled ∧ s.slotsFilled ∧ s.slotsGranted := by
  constructor
  · rintro ⟨hl, ht, hd, hu⟩
    exact ⟨⟨hl, ht, hd⟩, fun n => (hu n).1, fun n => (hu n).2⟩
  · rintro ⟨⟨hl, ht, hd⟩, hf, hg⟩
    exact ⟨hl, ht, hd, fun n => ⟨hf n, hg n⟩⟩

theorem State.slotsHeld.ruled {s : State} (h : s.slotsHeld) : s.slotsRuled := (s.slotsHeld_iff.mp h).1
theorem State.slotsHeld.filled {s : State} (h : s.slotsHeld) : s.slotsFilled := (s.slotsHeld_iff.mp h).2.1

/-! ## Updates of one block -/

theorem Keeps.advanceTo (s : State) (t : Nat) : Keeps 0 0 s (s.advanceTo t) :=
  ⟨⟨rfl, .refl _, fun h => { h with }, fun _ h => h⟩, fun h => h, fun h => h⟩

theorem Keeps.awaitTime (s : State) (t : Time) : Keeps 0 0 s (s.awaitTime t) := .advanceTo s _

theorem Keeps.setFree (s : State) (n : Nat) : Keeps 0 0 s (s.setFree n) :=
  ⟨⟨rfl, .refl _, fun h => { h with }, fun _ h => h⟩, fun h => h, fun h => h⟩

theorem Keeps.setTurns (s : State) (q : List RefreshTurn) : Keeps 0 0 s (s.setTurns q) :=
  ⟨⟨rfl, .refl _, fun h => { h with }, fun _ h => h⟩, fun h => h, fun h => h⟩

theorem Keeps.setCfl (s : State) (b : Cfl) : Keeps 0 0 s (s.setCfl b) :=
  ⟨⟨rfl, .refl _, fun h => { h with }, fun _ h => h⟩, fun h => h, fun h => h⟩

theorem Keeps.setTas {s : State} {b : Tas}
    (hb : s.tas.tableOk → s.tas.tableOrdered → b.tableOk ∧ b.tableOrdered) : Keeps 0 0 s (s.setTas b) :=
  ⟨⟨rfl, .refl _, fun h => { h with table := (hb h.table h.order).1, order := (hb h.table h.order).2 },
    fun _ h => h⟩, fun h => h, fun h => h⟩

/-- The Sampler with its ring and the presence state as they were. -/
theorem Keeps.setSmp {s : State} {b : Smp} (hr : b.ring = s.smp.ring) (hp : b.presence = s.smp.presence) :
    Keeps 0 0 s (s.setSmp b) := by
  refine ⟨⟨rfl, .refl _, fun h => { h with rings := ?_ }, fun _ h => h⟩, ?_, fun h => h⟩
  · have := h.rings
    unfold State.ringsBounded at this ⊢
    rwa [State.setSmp_smp, hr]
  · have he : (s.setSmp b).emissionCap = s.emissionCap := by
      simp only [State.emissionCap, State.presenceCap, State.setSmp_smp, State.setSmp_pmg, hp]
    unfold State.capHeld
    rw [he]
    exact id

theorem Keeps.setOri {s : State} {b : Ori} (hb : b.history = s.ori.history) : Keeps 0 0 s (s.setOri b) := by
  refine ⟨⟨rfl, .refl _, fun h => { h with rings := ?_ }, fun _ h => h⟩, fun h => h, fun h => h⟩
  have := h.rings
  unfold State.ringsBounded at this ⊢
  rwa [State.setOri_ori, hb]

theorem Keeps.setFri {s : State} {b : Fri}
    (hb : ∀ p, (s.fri.eyes.get p).slotsOk → (b.eyes.get p).slotsOk) : Keeps 0 0 s (s.setFri b) :=
  ⟨⟨rfl, .refl _, fun h => { h with eyes := fun p => hb p (h.eyes p) }, fun _ h => h⟩, fun h => h, fun h => h⟩

/-- The Scan-Out with no applied emission that rises above the cap. -/
theorem Keeps.setSco {s : State} {b : Sco}
    (hl : b.panels.left.applied ≤ s.sco.panels.left.applied ∨ b.panels.left.applied ≤ s.emissionCap)
    (hr : b.panels.right.applied ≤ s.sco.panels.right.applied ∨ b.panels.right.applied ≤ s.emissionCap) :
    Keeps 0 0 s (s.setSco b) := by
  refine ⟨⟨rfl, .refl _, fun h => { h with }, fun _ h => h⟩, fun ⟨h, g⟩ => ?_, fun h => h⟩
  show b.panels.left.applied ≤ s.emissionCap ∧ b.panels.right.applied ≤ s.emissionCap
  exact ⟨hl.elim (fun x => x.trans h) id, hr.elim (fun x => x.trans g) id⟩

/-- The class waits, before, whose waiting place holds something after. -/
theorem State.slotsHeld.mono {s t : State} (h : s.slotsHeld) (hl : t.lnk = s.lnk) (hr : t.rch.slots = s.rch.slots)
    (hw : ∀ c, t.waiting c ≠ none → s.waiting c ≠ none) : t.slotsHeld := by
  obtain ⟨hm, ht, hd, hu⟩ := h
  have hh : ∀ c, t.rch.holding c = s.rch.holding c := fun c => by unfold Rch.holding; rw [hr]
  refine ⟨fun c => (hh c).symm ▸ hm c, by rw [hr, hl]; exact ht, by rw [hr, hl]; exact hd, ?_⟩
  rw [hr, hl]
  intro n
  exact ⟨fun c w => by rw [hh]; exact (hu n).1 c (hw c w), (hu n).2⟩

/-- The Audio Unit with its queues within their capacities; an empty Capture Queue stays empty. -/
theorem Keeps.setAud {s : State} {b : Aud}
    (hq : s.aud.queue.length ≤ 16 → s.aud.queue.Pairwise (fun x y => x.time.toNat < y.time.toNat) →
      b.queue.length ≤ 16 ∧ b.queue.Pairwise fun x y => x.time.toNat < y.time.toNat)
    (hc : s.aud.captureQueue.length ≤ 8 → b.captureQueue.length ≤ 8)
    (he : s.aud.captureQueue = [] → b.captureQueue = [])
    (ha : s.aud.requestedAtt ≤ 255 → b.requestedAtt ≤ 255) : Keeps 0 0 s (s.setAud b) := by
  refine ⟨⟨rfl, .refl _, fun h => { h with queues := ?_, level := ha h.level }, fun _ h => h⟩, fun h => h,
    fun h => h.mono rfl rfl fun c => ?_⟩
  · obtain ⟨h1, h2, h3, h4⟩ := h.queues
    exact ⟨h1, hc h2, (hq h3 h4).1, (hq h3 h4).2⟩
  · cases c
    case capture => simpa [State.waiting] using fun hn e => hn (he e)
    all_goals exact id

/-- The Audio Unit with its queues as they were. -/
theorem Keeps.setAud_same {s : State} {b : Aud} (hq : b.queue = s.aud.queue)
    (hc : b.captureQueue = s.aud.captureQueue) (ha : b.requestedAtt = s.aud.requestedAtt) :
    Keeps 0 0 s (s.setAud b) :=
  .setAud (fun h g => by rw [hq]; exact ⟨h, g⟩) (by rw [hc]; exact id) (by rw [hc]; exact id) (by rw [ha]; exact id)

/-- The Power Manager with what the cap in force hangs on as it was. -/
theorem Keeps.setPmg {s : State} {b : Pmg} (hb : s.pmg.held → b.held) (hr : b.rows = s.pmg.rows)
    (hs : b.stage = s.pmg.stage) (he : b.stillEmission = s.pmg.stillEmission) : Keeps 0 0 s (s.setPmg b) := by
  refine ⟨⟨rfl, .refl _, fun h => { h with power := hb h.power, rows := ?_ }, fun _ h => h⟩, ?_, fun h => h⟩
  · have := h.rows
    unfold Pmg.rowsHeld at this ⊢
    rwa [State.setPmg_pmg, hr]
  · have he : (s.setPmg b).emissionCap = s.emissionCap := by
      simp only [State.emissionCap, State.presenceCap, Pmg.row, State.setPmg_smp, State.setPmg_pmg, he, hr, hs]
    unfold State.capHeld
    rw [he]
    exact id

/-- The link with U0 as it was, up or down as it was; arbitration is not resumed. -/
theorem Keeps.setLnk {s : State} {b : Lnk} (hs : b.state = .down ↔ s.lnk.state = .down) (hu : b.u0 = s.lnk.u0)
    (hl : b.suspended = false → s.lnk.suspended = false) : Keeps 0 0 s (s.setLnk b) := by
  refine ⟨⟨rfl, .refl _, fun h => { h with }, fun _ h => h⟩, fun h => h, ?_⟩
  rintro ⟨hm, ht, hd, hn⟩
  refine ⟨hm, ?_, fun k => ?_, fun k => ⟨(hn (fun e => k (hs.mpr e))).1, fun hi hf => ?_⟩⟩
  · intro i
    rw [State.setLnk_lnk, hu]
    exact ht i
  · rw [State.setLnk_lnk, hu]
    exact hd (hs.mp k)
  · exact (hn (fun e => k (hs.mpr e))).2 (hu.symm.trans hi) (hl hf)

theorem Keeps.setRch {s : State} {b : Rch} (hs : b.slots = s.rch.slots)
    (hp : b.pendingMotion = s.rch.pendingMotion) : Keeps 0 0 s (s.setRch b) := by
  refine ⟨⟨rfl, .refl _, fun h => { h with }, fun d h => ?_⟩, fun h => h, fun h => h.mono rfl hs fun c => ?_⟩
  · unfold State.owes State.outgoing at h ⊢
    rwa [State.setRch_rch, hs]
  · cases c
    case motion => simp only [State.waiting, State.setRch_rch, hp]; exact id
    all_goals exact id

/-- The Message Engine with its queues, its set in progress and its admitted count as they were. -/
theorem Keeps.setMge {s : State} {b : Mge} (hq : b.requests = s.mge.requests)
    (hi : b.inProgress = s.mge.inProgress) (hr : b.replies = s.mge.replies) (hp : b.reports = s.mge.reports)
    (ha : b.admitted = s.mge.admitted) : Keeps 0 0 s (s.setMge b) := by
  refine ⟨⟨rfl, .refl _, fun h => { h with queues := ?_ }, fun d h => ?_⟩, fun h => h,
    fun h => h.mono rfl rfl fun c => ?_⟩
  · obtain ⟨h1, h2, h3, h4⟩ := h.queues
    exact ⟨by rw [State.setMge_mge, hp]; exact h1, h2, h3, h4⟩
  · unfold State.owes State.outgoing at h ⊢
    rwa [State.setMge_mge, State.setMge_rch, hq, hi, hr, ha]
  · cases c <;> simp only [State.waiting, State.setMge_mge, State.setMge_aud, State.setMge_rch, hr, hp] <;> exact id

theorem Keeps.setCst {s : State} {b : Cst} (hp : s.cst.Protects b)
    (hw : storeWf s.cst.array = true → s.cst.opHeld → storeWf b.array = true) : Keeps 0 0 s (s.setCst b) :=
  ⟨⟨rfl, hp, fun h => { h with store := hw h.store h.op, op := (hp h.op).1 }, fun _ h => h⟩, fun h => h, fun h => h⟩

/-- The store with its array, boundary and operation as they were. -/
theorem Keeps.setCst_same {s : State} {b : Cst} (ha : b.array = s.cst.array) (hb : b.boundary = s.cst.boundary)
    (ho : b.op = s.cst.op) : Keeps 0 0 s (s.setCst b) := by
  refine .setCst (fun h => ⟨?_, hb.ge, fun _ _ => by rw [ha]⟩) (fun h _ => by rw [ha]; exact h)
  unfold Cst.opHeld at h ⊢
  rwa [ho, hb]

/-! ## The emission cap worked out again -/

/-- An operation that may pass the cap on its way keeps it once the cap is worked out again. -/
theorem Keeps.updateCap {m n : Nat} {s t : State} (h : Lax m n s t) (hs : s.slotsHeld → t.slotsHeld) :
    Keeps m n s t.updateCap :=
  ⟨h.trans ⟨rfl, .refl _, fun h => { h with }, fun _ h => h⟩, fun _ => t.updateCap_held, hs⟩

/-! ## Placement -/

/-- Slots of one kind after one slot is set. -/
theorem countP_set (p : TxSlot → Bool) (v : Vector TxSlot 4) (i : Fin 4) (x : TxSlot) :
    (v.set i x).toList.countP p + (if p v[i] then 1 else 0) = v.toList.countP p + (if p x then 1 else 0) := by
  have hi : (i : Nat) < v.toList.length := by simp
  have hpos : (if p v[i] then 1 else 0) ≤ v.toList.countP p := by
    split
    · exact List.countP_pos_iff.mpr ⟨v[i], by simp, ‹_›⟩
    · exact Nat.zero_le _
  rw [Vector.toList_set, List.countP_set hi, Vector.getElem_toList]
  change v.toList.countP p - (if p v[i] = true then 1 else 0) + _ + _ = _
  omega

/-- How many replies are on their way. -/
theorem State.outgoing_length (s : State) :
    s.outgoing.length = s.rch.slots.toList.countP (fun t => t.reply?.isSome) + s.mge.replies.length := by
  rw [State.outgoing, List.length_append, List.length_filterMap_eq_countP]

/-- An item taken from its waiting place is a reply just when it leaves the Reply Queue. -/
theorem State.dropWaiting_replies {s : State} {c : ItemClass} {y : Item} (h : s.waiting c = some y) :
    (s.dropWaiting c).mge.replies.length + (if (TxSlot.occupied y).reply?.isSome then 1 else 0) =
      s.mge.replies.length := by
  cases c with
  | reply =>
    cases hq : s.mge.replies with
    | nil => simp [State.waiting, hq] at h
    | cons r l =>
      simp only [State.waiting, hq, List.head?_cons, Option.map_some, Option.some.injEq] at h
      subst h
      simp [State.dropWaiting, hq, TxSlot.reply?]
  | report =>
    obtain ⟨r, -, rfl⟩ := Option.map_eq_some_iff.mp h
    rfl
  | motion =>
    obtain ⟨r, -, rfl⟩ := Option.map_eq_some_iff.mp h
    rfl
  | capture =>
    obtain ⟨r, -, rfl⟩ := Option.map_eq_some_iff.mp h
    rfl

/-- The item at a class's waiting place is of that class. -/
theorem State.waiting_class {s : State} {c : ItemClass} {y : Item} (h : s.waiting c = some y) : y.itemClass = c := by
  cases c <;> obtain ⟨_, -, rfl⟩ := Option.map_eq_some_iff.mp h <;> rfl

theorem Lax.placeOne {s t : State} (h : s.placeOne = some t) : Lax 0 0 s t := by
  obtain ⟨i, c, y, hi, -, hy, rfl⟩ := State.placeOne_spec h
  have hm : (s.dropWaiting c).mge.admitted = s.mge.admitted ∧ (s.dropWaiting c).mge.requests = s.mge.requests ∧
      (s.dropWaiting c).mge.inProgress = s.mge.inProgress := by cases c <;> exact ⟨rfl, rfl, rfl⟩
  refine ⟨by cases c <;> rfl, by cases c <;> exact .refl _, fun hb => ?_, fun d hd => ?_⟩
  · obtain ⟨h1, h2, h3, h4⟩ := hb.queues
    cases c with
    | reply => exact { hb with }
    | report => exact { hb with queues := ⟨(List.tail_sublist _).length_le.trans h1, h2, h3, h4⟩ }
    | motion => exact { hb with }
    | capture => exact { hb with queues := ⟨h1, (List.tail_sublist _).length_le.trans h2, h3, h4⟩ }
  · obtain ⟨ha, hr, hp⟩ := hm
    have hc := countP_set (fun t => t.reply?.isSome) s.rch.slots i (.occupied y)
    have hw := State.dropWaiting_replies hy
    rw [hi] at hc
    unfold State.owes at hd ⊢
    rw [State.outgoing_length] at hd ⊢
    simp only [State.setRch_mge, State.setRch_rch, ha, hr, hp]
    have h0 : TxSlot.empty.reply?.isSome = false := rfl
    simp only [h0, Bool.false_eq_true, if_false] at hc
    omega

theorem Lax.placeUpTo (n : Nat) (s : State) : Lax 0 0 s (State.placeUpTo n s) := by
  induction n generalizing s with
  | zero => exact .refl 0 s
  | succ n ih =>
    unfold State.placeUpTo
    split
    · exact .refl 0 s
    · exact (Lax.placeOne ‹_›).trans (ih _)

theorem Lax.fill (s : State) : Lax 0 0 s s.fill := by
  unfold State.fill
  split
  · exact .placeUpTo 4 s
  · exact .refl 0 s

theorem Lax.grant {s : State} {i : Fin 4} {y : Item} (h : s.rch.slots[i] = .occupied y) : Lax 0 0 s (s.grant i y) := by
  refine ⟨rfl, .refl _, fun h => { h with }, fun d hd => ?_⟩
  have hc := countP_set (fun t => t.reply?.isSome) s.rch.slots i (.transmitting y)
  have he : (TxSlot.transmitting y).reply? = (TxSlot.occupied y).reply? := by cases y <;> rfl
  rw [h, he] at hc
  unfold State.owes at hd ⊢
  rw [State.outgoing_length] at hd ⊢
  change s.mge.admitted = _ + _ + ((s.rch.slots.set i (.transmitting y)).toList.countP _ + s.mge.replies.length) + _ ∧ _
  simp only [State.grant, State.setLnk_mge, State.setRch_mge]
  omega

theorem Lax.arbitrate (s : State) : Lax 0 0 s s.arbitrate := by
  rcases s.arbitrate_cases with h | ⟨i, y, -, hw, h⟩ <;> rw [h]
  · exact .refl 0 s
  · exact .grant (winner_occupied hw)

theorem Lax.place (s : State) : Lax 0 0 s s.place := (Lax.fill s).trans (.arbitrate _)

/-- Placement touches neither the panels nor what the cap in force hangs on. -/
theorem OnlyMessages.cap {s t : State} (h : OnlyMessages s t) (hc : s.capHeld) : t.capHeld := by
  unfold State.capHeld State.emissionCap State.presenceCap
  rw [h.sco, h.pmg, h.smp]
  exact hc

/-! ## The slots' rules under placement -/

theorem Rch.holding_set {r q : Rch} {i : Fin 4} {x : TxSlot} (h : q.slots = r.slots.set i x) (c : ItemClass) :
    q.holding c + (if r.slots[i].item.map Item.itemClass = some c then 1 else 0) =
      r.holding c + (if x.item.map Item.itemClass = some c then 1 else 0) := by
  have hc := countP_set (fun t => decide (t.item.map Item.itemClass = some c)) r.slots i x
  unfold Rch.holding
  rw [h]
  simpa only [decide_eq_true_eq] using hc

/-- Outside DOWN a placement keeps the rules that hold during a fill. -/
theorem State.placeOne_ruled {s t : State} (hn : s.lnk.state ≠ .down) (hs : s.slotsRuled) (h : s.placeOne = some t) :
    t.slotsRuled := by
  obtain ⟨i, c, y, hi, hnc, hy, he⟩ := State.placeOne_spec h
  obtain ⟨hl, hu, -⟩ := hs
  have hk : t.lnk = s.lnk := by rw [he]; cases c <;> rfl
  have ht : t.rch.slots = s.rch.slots.set i (.occupied y) := by rw [he]; rfl
  have hpl : s.rch.holding c < c.limit := by
    have := List.of_mem_filter (argMin_mem _ hnc)
    simp only [State.placeable, Bool.and_eq_true, decide_eq_true_eq] at this
    exact this.2
  refine ⟨fun d => ?_, fun j => ?_, fun hd => absurd (hk ▸ hd) hn⟩
  · have hh := Rch.holding_set ht d
    have hd := hl d
    rw [hi] at hh
    simp only [TxSlot.item, Option.map_none, reduceCtorEq, if_false, Option.map_some, Option.some.injEq,
      State.waiting_class hy] at hh
    by_cases e : c = d
    · subst e
      rw [if_pos rfl] at hh
      omega
    · rw [if_neg e] at hh
      omega
  · rw [hk, ht, getSlot_set]
    split
    · subst_vars
      rw [← hu, hi]
      exact ⟨fun ⟨_, e⟩ => (nomatch e), fun ⟨_, e⟩ => (nomatch e)⟩
    · exact hu j

/-- How many slots are EMPTY. -/
def Rch.empties (r : Rch) : Nat := r.slots.toList.countP fun t => decide (t = .empty)

theorem State.placeOne_empties {s t : State} (h : s.placeOne = some t) : t.rch.empties + 1 = s.rch.empties := by
  obtain ⟨i, c, y, hi, -, -, rfl⟩ := State.placeOne_spec h
  have hc := countP_set (fun t => decide (t = .empty)) s.rch.slots i (.occupied y)
  rw [hi] at hc
  simpa [Rch.empties] using hc

theorem Rch.emptySlot_none {r : Rch} (h : r.emptySlot = none) (i : Fin 4) : r.slots[i] ≠ .empty := by
  have := List.find?_eq_none.mp h i (by fin_cases i <;> simp)
  simpa using this

theorem argMin_none {α : Type} {f : α → Nat} {l : List α} (h : argMin f l = none) : l = [] := by
  cases l with
  | nil => rfl
  | cons a l =>
    unfold argMin at h
    split at h
    · cases h
    · split at h <;> cases h

/-- Where no placement can be made the slots are filled. -/
theorem State.placeOne_none {s : State} (h : s.placeOne = none) : s.slotsFilled := by
  intro _ c hc hl
  cases he : s.rch.emptySlot with
  | none => exact Rch.emptySlot_none he
  | some i =>
    exfalso
    have hp : s.placeable c = true := by
      simp [State.placeable, hl, Option.isSome_iff_ne_none, hc]
    cases hx : s.nextClass with
    | none =>
      have hm : c ∈ ([ItemClass.reply, .motion, .capture, .report].filter s.placeable) :=
        List.mem_filter.mpr ⟨by cases c <;> simp, hp⟩
      rw [argMin_none hx] at hm
      cases hm
    | some d =>
      have hd := List.of_mem_filter (argMin_mem _ hx)
      simp only [State.placeable, Bool.and_eq_true] at hd
      obtain ⟨y, hy⟩ := Option.isSome_iff_exists.mp hd.1
      simp [State.placeOne, he, hx, hy] at h

/-- As many placements as there are EMPTY slots leave none to be made. -/
theorem State.placeUpTo_filled (n : Nat) (s : State) (h : s.rch.empties ≤ n) : (State.placeUpTo n s).slotsFilled := by
  induction n generalizing s with
  | zero =>
    refine fun _ _ _ _ i hi => ?_
    have : 0 < s.rch.empties := List.countP_pos_iff.mpr ⟨s.rch.slots[i], by simp, decide_eq_true hi⟩
    omega
  | succ n ih =>
    unfold State.placeUpTo
    split
    · exact State.placeOne_none ‹_›
    · rename_i t ht
      have := State.placeOne_empties ht
      exact ih t (by omega)

theorem State.placeUpTo_ruled (n : Nat) (s : State) (hn : s.lnk.state ≠ .down) (h : s.slotsRuled) :
    (State.placeUpTo n s).slotsRuled := by
  induction n generalizing s with
  | zero => exact h
  | succ n ih =>
    unfold State.placeUpTo
    split
    · exact h
    · rename_i t ht
      exact ih t (by rw [(State.placeOne_only ht).lnk]; exact hn) (State.placeOne_ruled hn h ht)

/-- A fill keeps the link as it is. -/
theorem State.placeUpTo_lnk (n : Nat) (s : State) : (State.placeUpTo n s).lnk = s.lnk := by
  induction n generalizing s with
  | zero => rfl
  | succ n ih =>
    unfold State.placeUpTo
    split
    · rfl
    · rename_i t ht
      obtain ⟨i, c, y, -, -, -, rfl⟩ := State.placeOne_spec ht
      rw [ih]
      cases c <;> rfl

theorem State.fill_lnk (s : State) : s.fill.lnk = s.lnk := by
  unfold State.fill
  split
  · exact s.placeUpTo_lnk 4
  · rfl

theorem State.fill_ruled {s : State} (h : s.slotsRuled) : s.fill.slotsRuled ∧ s.fill.slotsFilled := by
  unfold State.fill
  split
  · rename_i ho
    have hn : s.lnk.state ≠ .down := by simpa [State.laneOpen] using ho
    have h4 : s.rch.empties ≤ 4 := by
      have := List.countP_le_length (p := fun t => decide (t = .empty)) (l := s.rch.slots.toList)
      simpa [Rch.empties] using this
    exact ⟨State.placeUpTo_ruled 4 s hn h, State.placeUpTo_filled 4 s h4⟩
  · rename_i ho
    exact ⟨h, fun hn => absurd (by simpa [State.laneOpen] using hn) ho⟩

/-- An arbitration keeps the rules, and none is left to be made. -/
theorem State.arbitrate_held {s : State} (h : s.slotsRuled) (hf : s.slotsFilled) : s.arbitrate.slotsHeld := by
  rw [State.slotsHeld_iff]
  unfold State.arbitrate
  split
  · rename_i hc
    simp only [Bool.and_eq_true, decide_eq_true_eq, Bool.not_eq_true'] at hc
    obtain ⟨⟨ho, hu⟩, hsu⟩ := hc
    have hn : s.lnk.state ≠ .down := by simpa [State.laneOpen] using ho
    split
    · rename_i i y hw
      have hi := winner_occupied hw
      obtain ⟨hl, ht, -⟩ := h
      have hg : ∀ j, (s.grant i y).rch.slots[j] = if i = j then .transmitting y else s.rch.slots[j] :=
        fun j => getSlot_set _ _ _ _
      have hh : ∀ c, (s.grant i y).rch.holding c = s.rch.holding c := fun c => by
        have := Rch.holding_set (r := s.rch) (q := (s.grant i y).rch) rfl c
        rw [hi] at this
        exact Nat.add_right_cancel this
      refine ⟨⟨fun c => hh c ▸ hl c, fun j => ?_, fun hd => absurd hd hn⟩, fun _ c hc hlim j => ?_,
        fun _ hidle => nomatch hidle⟩
      · rw [hg]
        by_cases e : i = j
        · subst e
          rw [if_pos rfl]
          exact ⟨fun _ => ⟨_, _, rfl⟩, fun _ => ⟨_, rfl⟩⟩
        · rw [if_neg e]
          constructor
          · intro hj
            obtain ⟨f, e', hj⟩ := (ht j).mp hj
            rw [hu] at hj
            cases hj
          · rintro ⟨f, e', hj⟩
            cases hj
            exact absurd rfl e
      · rw [hg]
        split
        · exact nofun
        · have hw' : (s.grant i y).waiting c = s.waiting c := by cases c <;> rfl
          rw [hw'] at hc
          rw [hh] at hlim
          exact hf hn c hc hlim j
    · rename_i hw
      refine ⟨h, hf, fun _ _ _ i item hi => ?_⟩
      have hm := argMin_none hw
      rw [List.filterMap_eq_nil_iff] at hm
      have := hm i (by fin_cases i <;> simp)
      rw [hi] at this
      cases this
  · rename_i hc
    refine ⟨h, hf, fun hn hu hs => ?_⟩
    simp [State.laneOpen, hn, hu, hs] at hc

/-- A fill and an arbitration leave the slots as the rules say. -/
theorem State.place_held {s : State} (h : s.slotsRuled) : s.place.slotsHeld :=
  State.arbitrate_held (State.fill_ruled h).1 (State.fill_ruled h).2

theorem Keeps.place (s : State) : Keeps 0 0 s s.place :=
  ⟨.place s, s.place_only.cap, fun h => State.place_held h.ruled⟩

/-- What is still to be placed is placed. -/
theorem Keeps.place_of {m n : Nat} {s t : State} (h : Lax m n s t) (hc : s.capHeld → t.capHeld)
    (hs : s.slotsRuled → t.slotsRuled) : Keeps m n s t.place :=
  ⟨h.trans ((Lax.place t).quiet n), t.place_only.cap ∘ hc,
    fun h => State.place_held (hs h.ruled)⟩

/-! ## Replies and reports -/

/-- A reply formed answers one request. -/
theorem Keeps.formReply (s : State) (kind tag : Byte) (st : Status) (f : List Byte) :
    Keeps 1 0 s (s.formReply kind tag st f) := by
  refine .place_of ⟨rfl, .refl _, fun h => { h with }, fun d hd => ?_⟩ (fun h => h) (fun h => h)
  unfold State.owes at hd ⊢
  rw [State.outgoing_length] at hd ⊢
  simp only [State.setMge_mge, State.setMge_rch, List.length_append, List.length_singleton]
  omega

theorem Mge.makeRoom_length (m : Mge) (h : m.reports.length ≤ 8) : m.makeRoom.reports.length ≤ 7 := by
  unfold Mge.makeRoom
  split
  · omega
  · simp only [List.length_tail]
    omega

theorem Mge.makeRoom_account (m : Mge) : m.makeRoom.requests = m.requests ∧ m.makeRoom.inProgress = m.inProgress ∧
    m.makeRoom.replies = m.replies ∧ m.makeRoom.admitted = m.admitted := by
  unfold Mge.makeRoom
  split <;> exact ⟨rfl, rfl, rfl, rfl⟩

/-- A report joins the Report Queue, which has room, and is placed. -/
theorem Keeps.addReport {s : State} {b : Mge} {r : Report} (hq : b.requests = s.mge.requests)
    (hi : b.inProgress = s.mge.inProgress) (hr : b.replies = s.mge.replies) (ha : b.admitted = s.mge.admitted)
    (hp : b.reports = s.mge.makeRoom.reports ++ [r]) : Keeps 0 0 s (s.setMge b).place := by
  refine .place_of ⟨rfl, .refl _, fun h => { h with queues := ?_ }, fun d hd => ?_⟩ (fun h => h) (fun h => h)
  · obtain ⟨h1, h2, h3, h4⟩ := h.queues
    refine ⟨?_, h2, h3, h4⟩
    have := s.mge.makeRoom_length h1
    rw [State.setMge_mge, hp, List.length_append, List.length_singleton]
    omega
  · unfold State.owes State.outgoing at hd ⊢
    rwa [State.setMge_mge, State.setMge_rch, hq, hi, hr, ha]

theorem Keeps.handReport (s : State) (kind : ReportKind) (f : List Byte) : Keeps 0 0 s (s.handReport kind f) := by
  obtain ⟨hq, hi, hr, ha⟩ := s.mge.makeRoom_account
  exact .addReport hq hi hr ha rfl

theorem Keeps.reportIf (s : State) (b : Bool) (kind : ReportKind) (f : List Byte) :
    Keeps 0 0 s (s.reportIf b kind f) := .ite (fun _ => .handReport s kind f) fun _ => .refl 0 s

theorem Keeps.setSummary (s : State) (bits : BitVec 8) : Keeps 0 0 s (s.setSummary bits) := by
  have hb : Keeps 0 0 s (s.withBits bits) := .setMge rfl rfl rfl rfl rfl
  refine .ite (fun _ => hb.trans ?_) fun _ => hb
  obtain ⟨hq, hi, hr, ha⟩ := (s.withBits bits).mge.makeRoom_account
  exact .addReport (s := s.withBits bits) hq hi hr ha rfl

theorem Keeps.then_setSummary {m n : Nat} {s t : State} {bits : BitVec 8} (h : Keeps m n s t) :
    Keeps m n s (t.setSummary bits) := by
  have := (Keeps.setSummary t bits).lift n
  rw [Nat.zero_add] at this
  exact h.trans this

theorem Keeps.then_reportIf {m n : Nat} {s t : State} {b : Bool} {kind : ReportKind} {f : List Byte}
    (h : Keeps m n s t) : Keeps m n s (t.reportIf b kind f) := by
  have := (Keeps.reportIf t b kind f).lift n
  rw [Nat.zero_add] at this
  exact h.trans this

theorem Keeps.then_setCfl {m n : Nat} {s t : State} {b : Cfl} (h : Keeps m n s t) : Keeps m n s (t.setCfl b) := by
  have := (Keeps.setCfl t b).lift n
  rw [Nat.zero_add] at this
  exact h.trans this

/-! ## Dispatch -/

/-- The request at the head leaves the queue unanswered. -/
theorem Keeps.popRequest {s : State} {r : Request} (h : s.mge.requests.head? = some r) : Keeps 0 1 s s.popRequest := by
  refine ⟨⟨rfl, .refl _, fun h => { h with }, fun d hd => ?_⟩, fun h => h,
    fun h => h.mono rfl rfl fun c => by cases c <;> exact id⟩
  have hl : s.mge.requests.tail.length + 1 = s.mge.requests.length := by
    cases hq : s.mge.requests with
    | nil => rw [hq] at h; cases h
    | cons a l => simp
  unfold State.owes at hd ⊢
  rw [State.outgoing_length] at hd ⊢
  simp only [State.popRequest, State.setMge_mge, State.setMge_rch]
  omega

theorem Keeps.enqueue (s : State) (r : Request) : Keeps 0 0 s (s.enqueue r) := by
  refine .ite (fun _ => .then_setSummary (.setMge rfl rfl rfl rfl rfl)) fun hn => ?_
  refine ⟨⟨rfl, .refl _, fun h => { h with }, fun d hd => ?_⟩, fun h => h,
    fun h => h.mono rfl rfl fun c => by cases c <;> exact id⟩
  unfold State.owes at hd ⊢
  rw [State.outgoing_length] at hd ⊢
  simp only [State.setMge_mge, State.setMge_rch, List.length_append, List.length_singleton]
  omega

theorem Keeps.controlMessage (s : State) (p : List Byte) : Keeps 0 0 s (s.controlMessage p) :=
  .ite (fun _ => .setMge rfl rfl rfl rfl rfl) fun _ =>
    .ite (fun _ => .setMge rfl rfl rfl rfl rfl) fun _ => .enqueue s _

theorem Keeps.routed (s : State) (c : BitVec 12) : Keeps 0 0 s (s.routed c) :=
  .then_setCfl (.setLnk Iff.rfl rfl id)

theorem Keeps.bring (s : State) (r : Request) : Keeps 0 0 s (s.bring r) := by
  refine .ite (fun _ => .refl 0 s) fun _ => .ite (fun _ => ?_) fun _ => .refl 0 s
  split
  · exact .refl 0 s
  · exact (Keeps.routed s _).trans (.controlMessage _ _)

/-- A request dispatched to an owner that answers it. -/
theorem Keeps.dispatch (s : State) (r : Request) {owner : State → State} (h : ∀ t, Keeps 1 0 t (owner t)) :
    Keeps 0 0 s (s.dispatch r owner) :=
  .ite (fun hr => (Keeps.bring s r).trans ((Keeps.popRequest hr).trans (h _))) fun _ => .bring s r

/-- What a whole step keeps: as `Keeps`, with no request unanswered before it or after it. -/
structure Kept (s t : State) : Prop where
  pending : t.pending = s.pending
  store : s.cst.Protects t.cst
  bounds : s.Uncapped → t.Uncapped
  account : s.admissionHeld → t.admissionHeld
  cap : s.capHeld → t.capHeld
  slots : s.slotsHeld → t.slotsHeld

theorem Keeps.kept {s t : State} (h : Keeps 0 0 s t) : Kept s t :=
  ⟨h.pending, h.store, h.bounds, h.account 0, h.cap, h.slots⟩

theorem Kept.trans {s t u : State} (h : Kept s t) (g : Kept t u) : Kept s u :=
  ⟨g.pending.trans h.pending, h.store.trans g.store, g.bounds ∘ h.bounds, g.account ∘ h.account, g.cap ∘ h.cap,
    g.slots ∘ h.slots⟩

/-- A row's outcome is a next state that keeps what every step keeps. -/
def Completes (s : State) (o : Host.Outcome State Fault Refusal) : Prop := ∃ t, o = .next t ∧ Kept s t

theorem Completes.next {s t : State} (h : Keeps 0 0 s t) : Completes s (.next t) := ⟨t, rfl, h.kept⟩

/-- The row of a powered part; without power nothing happens. -/
theorem Completes.live' (s : State) {f : State → State} (h : Kept s (f s)) : Completes s (s.live f) := by
  refine ⟨_, rfl, ?_⟩
  split
  · exact h
  · exact (Keeps.refl 0 s).kept

theorem Completes.live (s : State) {f : State → State} (h : Keeps 0 0 s (f s)) : Completes s (s.live f) :=
  .live' s h.kept

/-- An immediate row completes if its owner keeps what every step keeps. -/
theorem Completes.immediate (s : State) (kind tag : Byte) (ps : List Byte) {owner : List Byte → State → Answer}
    (h : ∀ t, Keeps 0 0 t (owner ps t).state) : Completes s (s.immediate kind tag ps owner) :=
  .live s (.dispatch s _ fun t => (h t).lift₁.trans (.formReply _ _ _ _ _))

/-- What a long kind's owner keeps: an answer is still to be formed, a start takes the request in progress. -/
def LongAnswer.Kept (t : State) : LongAnswer → Prop
  | .answered a => Keeps 0 0 t a.state
  | .started r x => (∀ n, r ≠ .reset n) ∧ Keeps 0 0 t x

/-- A request that joins the in-progress set is unanswered no more, but for that of a Hub Reset. -/
theorem Keeps.join {m n : Nat} {x : State} {kind tag : Byte} {r : Resource}
    (h : (if (⟨kind, tag, r⟩ : InProgress).resets then 0 else 1) + n = m) :
    Keeps m n x (x.setMge { x.mge with inProgress := x.mge.inProgress ++ [⟨kind, tag, r⟩] }) := by
  refine ⟨⟨rfl, .refl _, fun h => { h with }, fun d hd => ?_⟩, fun h => h,
    fun h => h.mono rfl rfl fun c => by cases c <;> exact id⟩
  unfold State.owes at hd ⊢
  rw [State.outgoing_length] at hd ⊢
  simp only [State.setMge_mge, State.setMge_rch, List.filter_append, List.length_append]
  cases hr : (⟨kind, tag, r⟩ : InProgress).resets
  · rw [hr, if_neg (by decide)] at h
    simp only [List.filter_cons, hr, Bool.not_false, if_true, List.filter_nil, List.length_singleton]
    omega
  · rw [hr, if_pos rfl] at h
    simp only [List.filter_cons, hr, Bool.not_true, Bool.false_eq_true, if_false, List.filter_nil, List.length_nil]
    omega

theorem Completes.long (s : State) (kind tag : Byte) (ps : List Byte) {owner : List Byte → State → LongAnswer}
    (h : ∀ t, (owner ps t).Kept t) : Completes s (s.long kind tag ps owner) := by
  refine .live s (.dispatch s _ fun t => ?_)
  have := h t
  cases ho : owner ps t with
  | answered a =>
    rw [ho] at this
    exact this.lift₁.trans (.formReply _ _ _ _ _)
  | started r x =>
    rw [ho] at this
    refine this.2.lift₁.trans (.join ?_)
    cases r with
    | reset n => exact absurd rfl (this.1 n)
    | _ => rfl

/-- The replies formed one after another answer as many requests. -/
theorem Keeps.formReplies (st : Status) (fields : InProgress → State → List Byte) (l : List InProgress) (t : State) :
    Keeps l.length 0 t (l.foldl (fun t p => t.formReply p.kind p.tag st (fields p t)) t) := by
  induction l generalizing t with
  | nil => exact .refl 0 t
  | cons p l ih =>
    have h := (Keeps.formReply t p.kind p.tag st (fields p t)).lift l.length
    rw [Nat.zero_add, Nat.add_comm] at h
    exact h.trans (ih _)

/-- Requests in progress that end are answered, none of them a Hub Reset. -/
theorem Keeps.finish (s : State) {holds : InProgress → Bool} (hh : ∀ e, holds e = true → e.resets = false) (st : Status)
    (fields : InProgress → State → List Byte) : Keeps 0 0 s (s.finish holds st fields) := by
  refine Keeps.trans (n := (s.mge.inProgress.filter holds).length) ?_ (.formReplies st fields _ _)
  refine ⟨⟨rfl, .refl _, fun h => { h with }, fun d hd => ?_⟩, fun h => h,
    fun h => h.mono rfl rfl fun c => by cases c <;> exact id⟩
  have hsplit : ∀ l : List InProgress, ((l.filter fun p => !holds p).filter fun e => !e.resets).length +
      (l.filter holds).length = (l.filter fun e => !e.resets).length := by
    intro l
    induction l with
    | nil => rfl
    | cons e l ih =>
      cases h1 : holds e <;> cases h2 : e.resets <;> simp [h1, h2] at ih ⊢
      · omega
      · omega
      · omega
      · exact absurd (hh e h1) (by simp [h2])
  have := hsplit s.mge.inProgress
  unfold State.owes at hd ⊢
  rw [State.outgoing_length] at hd ⊢
  simp only [State.setMge_mge, State.setMge_rch]
  omega

end Sys2Proof.Machine
end

section
/-! What every step keeps, continued: the operations of the Integrator, the Frame Intake, the Scan-Out, the
Sensor Sampler and the Audio Unit. -/

namespace Sys2Proof.Machine

theorem Keeps.andThen {m n : Nat} {s t u : State} (h : Keeps m n s t) (g : Keeps 0 0 t u) : Keeps m n s u := by
  have := g.lift n
  rw [Nat.zero_add] at this
  exact h.trans this

theorem takeFree_keeps (s : State) : Keeps 0 0 s s.takeFree.2 := .setFree s _

/-! ## Frame slots -/

theorem Eye.mem_inState {e : Eye} {st : SlotState} {i : Fin 3} : i ∈ e.inState st ↔ e.slots[i].state = st := by
  unfold Eye.inState
  rw [List.mem_filter, decide_eq_true_eq]
  exact ⟨And.right, fun h => ⟨by fin_cases i <;> simp, h⟩⟩

theorem Eye.filling_some {e : Eye} {i : Fin 3} (h : e.filling = some i) : e.slots[i].state = .filling :=
  Eye.mem_inState.mp (List.mem_of_head? h)

theorem Eye.filling_none {e : Eye} (h : e.filling = none) (i : Fin 3) : e.slots[i].state ≠ .filling := by
  intro hi
  have := List.head?_eq_none_iff.mp h
  rw [← Eye.mem_inState, this] at hi
  cases hi

theorem getFrameSlot_set (v : Vector FrameSlot 3) (i j : Fin 3) (x : FrameSlot) :
    (v.set i x)[j] = if i = j then x else v[j] := by
  by_cases h : i = j
  · subst h; simp
  · have : (i : Nat) ≠ j := fun e => h (Fin.ext e)
    simp [h, this]

/-- A slot set keeps the rule if no other slot is in its new state, where that is FILLING or SCANNING. -/
theorem Eye.slotsOk_set {e f : Eye} {i : Fin 3} {x : FrameSlot} (h : e.slotsOk) (hs : f.slots = e.slots.set i x)
    (hx : x.state = .filling ∨ x.state = .scanning → ∀ j, e.slots[j].state = x.state → i = j) : f.slotsOk := by
  intro a b hab hst
  rw [hs, getFrameSlot_set, getFrameSlot_set] at hab
  rw [hs, getFrameSlot_set] at hst
  by_cases ha : i = a <;> by_cases hb : i = b
  · exact ha.symm.trans hb
  · rw [if_pos ha, if_neg hb] at hab
    rw [if_pos ha] at hst
    exact absurd (hx hst b hab.symm) hb
  · rw [if_neg ha, if_pos hb] at hab
    rw [if_neg ha, hab] at hst
    exact absurd (hx hst a hab) ha
  · rw [if_neg ha, if_neg hb] at hab
    rw [if_neg ha] at hst
    exact h a b hab hst

/-- Slots that become FREE or keep their state keep the rule. -/
theorem Eye.slotsOk_freed {e f : Eye} (h : e.slotsOk)
    (hf : ∀ i : Fin 3, f.slots[i].state = e.slots[i].state ∨ f.slots[i].state = .free) : f.slotsOk := by
  intro a b hab hst
  have ha : f.slots[a].state = e.slots[a].state := (hf a).resolve_right fun k => by
    rw [k] at hst
    rcases hst with k | k <;> cases k
  have hb : f.slots[b].state = e.slots[b].state := (hf b).resolve_right fun k => by
    rw [hab, k] at hst
    rcases hst with k | k <;> cases k
  exact h a b (by rw [← ha, ← hb, hab]) (ha ▸ hst)

theorem Eye.freeSlot_states (e : Eye) (i j : Fin 3) :
    (e.freeSlot i).slots[j].state = if i = j then .free else e.slots[j].state := by
  unfold Eye.freeSlot
  rw [getFrameSlot_set]
  split <;> rfl

theorem Eye.freeSlot_ok {e f : Eye} {i : Fin 3} (h : e.slotsOk) (hs : f.slots = (e.freeSlot i).slots) : f.slotsOk :=
  Eye.slotsOk_freed h fun j => by
    rw [hs, Eye.freeSlot_states]
    split
    · exact .inr rfl
    · exact .inl rfl

theorem Eye.freeStates_state (e : Eye) (sts : List SlotState) (i : Fin 3) :
    (e.freeStates sts).slots[i].state = if sts.contains e.slots[i].state then .free else e.slots[i].state := by
  simp only [Eye.freeStates, Fin.getElem_fin, Vector.getElem_map]
  split <;> rfl

theorem Eye.freeStates_ok {e : Eye} (h : e.slotsOk) (sts : List SlotState) : (e.freeStates sts).slotsOk :=
  Eye.slotsOk_freed h fun i => by
    rw [Eye.freeStates_state]
    split
    · exact .inr rfl
    · exact .inl rfl

theorem Eye.tear_ok {e : Eye} (h : e.slotsOk) (i : Fin 3) : (e.tear i).slotsOk := Eye.freeSlot_ok h rfl

/-- After a tear no slot of the eye is FILLING. -/
theorem Eye.tear_filling {e : Eye} (h : e.slotsOk) {i : Fin 3} (hi : e.filling = some i) (j : Fin 3) :
    (e.tear i).slots[j].state ≠ .filling := by
  have := Eye.freeSlot_states e i j
  change (e.tear i).slots[j].state = _ at this
  rw [this]
  split
  · exact nofun
  · rename_i n
    exact fun hj => n (h i j ((Eye.filling_some hi).trans hj.symm) (.inl (Eye.filling_some hi)))

/-- The slot taken by a Frame Header leaves the others as they are, or one FREE. -/
theorem Eye.takeSlot_states {e f : Eye} {i : Fin 3} (h : e.takeSlot = some (i, f)) (j : Fin 3) :
    f.slots[j].state = e.slots[j].state ∨ f.slots[j].state = .free := by
  unfold Eye.takeSlot at h
  split at h
  · cases h
    exact .inl rfl
  · obtain ⟨k, -, hk⟩ := Option.map_eq_some_iff.mp h
    cases hk
    have := Eye.freeSlot_states e i j
    split at this
    · exact .inr this
    · exact .inl this

/-- The eye after the tear that a Frame Header makes, if a slot is FILLING. -/
def Eye.tornFirst (e : Eye) : Eye :=
  match e.filling with
  | some i => e.tear i
  | none => e

theorem Eye.tornFirst_ok {e : Eye} (h : e.slotsOk) :
    e.tornFirst.slotsOk ∧ ∀ j : Fin 3, e.tornFirst.slots[j].state ≠ .filling := by
  unfold Eye.tornFirst
  split
  · exact ⟨Eye.tear_ok h _, Eye.tear_filling h ‹_›⟩
  · exact ⟨h, Eye.filling_none ‹_›⟩

theorem Eye.header_ok {e : Eye} (h : e.slotsOk) (frame : BitVec 16) (tag : Seq) (ns : Bool) :
    (e.header frame tag ns).1.slotsOk := by
  obtain ⟨ht, hn⟩ := Eye.tornFirst_ok h
  unfold Eye.header
  change (match e.tornFirst.takeSlot with
    | none => (e.tornFirst, e.filling.isSome)
    | some (i, f) => _ : Eye × Bool).1.slotsOk
  split
  · exact ht
  · rename_i i f hf
    have hst := Eye.takeSlot_states hf
    refine Eye.slotsOk_set (Eye.slotsOk_freed ht hst) rfl fun _ j hj => ?_
    rcases hst j with k | k
    · exact absurd (k.symm.trans hj) (hn j)
    · rw [k] at hj
      cases hj

theorem Eye.slice_ok {e : Eye} (h : e.slotsOk) (m : DisplayMode) (sl : Slice) : (e.slice m sl).1.slotsOk := by
  unfold Eye.slice
  split
  · exact h
  · rename_i i hi
    have hfill := Eye.filling_some hi
    simp only
    split
    · exact h
    · split
      · exact h
      · split
        · exact Eye.tear_ok h i
        · have hs : ({ e with slots := e.slots.set i (e.slots[i].store m sl) } : Eye).slotsOk :=
            Eye.slotsOk_set h rfl fun _ j hj => h i j hj.symm (.inl hfill)
          split
          · exact Eye.slotsOk_set hs rfl fun k => by rcases k with k | k <;> cases k
          · exact hs

theorem Eye.message_ok {e : Eye} (h : e.slotsOk) (mode : Option DisplayMode) (p : List Byte) :
    (e.message mode p).1.slotsOk := by
  unfold Eye.message
  split
  · exact h
  · split
    · exact Eye.header_ok h _ _ _
    · split
      · exact Eye.slice_ok h _ _
      · exact h

theorem Eye.select_ok {e : Eye} (h : e.slotsOk) : e.select.2.slotsOk := by
  unfold Eye.select
  split
  · refine Eye.slotsOk_set (Eye.freeStates_ok h [.scanning, .complete]) rfl fun _ j hj => ?_
    rw [Eye.freeStates_state] at hj
    split at hj
    · cases hj
    · rename_i n
      rw [hj] at n
      exact absurd rfl n
  · split <;> exact h

theorem Eye.linkDown_ok {e : Eye} (h : e.slotsOk) : e.linkDown.slotsOk := (Eye.tornFirst_ok h).1

theorem Eye.newMode_ok {e : Eye} (h : e.slotsOk) : e.newMode.slotsOk :=
  Eye.slotsOk_freed h fun i => .inr (by simp [Eye.newMode, FrameSlot.release])

theorem Eye.hubReset_ok {e : Eye} (h : e.slotsOk) : e.hubReset.slotsOk :=
  Eye.slotsOk_freed h fun i => .inr (by simp [Eye.hubReset, FrameSlot.freed])

theorem Fri.mapEyes_ok {f : Fri} {g : Eye → Eye} (hg : ∀ e : Eye, e.slotsOk → (g e).slotsOk) (p : Panel)
    (h : (f.eyes.get p).slotsOk) : ((f.mapEyes g).eyes.get p).slotsOk := by
  cases p <;> exact hg _ h

/-! ## The Integrator and the Frame Intake -/

theorem readOrientation_keeps (ps : List Byte) (s : State) : Keeps 0 0 s (readOrientation ps s).state := by
  unfold readOrientation
  split
  · exact .refl 0 s
  · exact .ite (fun _ => .setOri rfl) fun _ => .refl 0 s

/-- One eye replaced by one that keeps the rule. -/
theorem setEye_keeps (s : State) (p : Panel) {e : Eye} (he : (s.fri.eyes.get p).slotsOk → e.slotsOk) :
    Keeps 0 0 s (s.setFri { s.fri with eyes := s.fri.eyes.set p e }) :=
  .setFri fun q => by cases p <;> cases q <;> first | exact he | exact id

theorem pictureMessage_keeps (s : State) (p : Panel) (payload : List Byte) :
    Keeps 0 0 s (s.pictureMessage p payload) :=
  .ite (fun _ => .then_setSummary (setEye_keeps s p fun h => Eye.message_ok h _ _)) fun _ =>
    setEye_keeps s p fun h => Eye.message_ok h _ _

theorem setDisplayMode_keeps (ps : List Byte) (s : State) : Keeps 0 0 s (setDisplayMode ps s).state := by
  unfold setDisplayMode
  split
  · exact .refl 0 s
  · split
    · exact .refl 0 s
    · split
      · exact .refl 0 s
      · exact .setFri fun p => Fri.mapEyes_ok (fun _ => Eye.newMode_ok) p

theorem readPictureStatus_keeps (ps : List Byte) (s : State) : Keeps 0 0 s (readPictureStatus ps s).state := by
  unfold readPictureStatus
  split
  · exact .refl 0 s
  · exact .ite (fun _ => .setFri fun p => Fri.mapEyes_ok (g := Eye.clearCounters) (fun _ h => h) p) fun _ => .refl 0 s

/-! ## The Scan-Out -/

/-- The Scan-Out with the panels as they were. -/
theorem Keeps.setSco_same {s : State} {b : Sco} (h : b.panels = s.sco.panels) : Keeps 0 0 s (s.setSco b) :=
  .setSco (.inl (by rw [h])) (.inl (by rw [h]))

theorem Keeps.then_setSco {m n : Nat} {s t : State} {b : Sco} (h : Keeps m n s t) (hb : b.panels = t.sco.panels) :
    Keeps m n s (t.setSco b) := h.andThen (.setSco_same hb)

theorem setPanel_keeps {s : State} {p : Panel} {c : PanelCtl}
    (h : c.applied ≤ (s.panel p).applied ∨ c.applied ≤ s.emissionCap) : Keeps 0 0 s (s.setPanel p c) := by
  cases p
  · exact .setSco h (.inl (Nat.le_refl _))
  · exact .setSco (.inl (Nat.le_refl _)) h

theorem updatePanels_keeps {f : PanelCtl → PanelCtl} (hf : ∀ c, (f c).applied ≤ c.applied) (names : List Panel)
    (s : State) : Keeps 0 0 s (s.updatePanels names f) := by
  induction names generalizing s with
  | nil => exact .refl 0 s
  | cons p l ih => exact (setPanel_keeps (.inl (hf _))).trans (ih _)

theorem lookup_history (o : Ori) (tag : Seq) (q : Time) : (o.lookup tag q).2.history = o.history := by
  unfold Ori.lookup
  simp only
  split
  · split <;> rfl
  · rfl

theorem shiftFor_keeps (s : State) (m : DisplayMode) (start : Time) (tag : Seq) (ns : Bool) :
    Keeps 0 0 s (s.shiftFor m start tag ns).2 := by
  unfold State.shiftFor
  split
  · exact .refl 0 s
  · exact .setOri (lookup_history _ _ _)

theorem showFrame_keeps (s : State) (p : Panel) (m : DisplayMode) (start : Time) (code : Nat) (frame : BitVec 16)
    (tag : Seq) (ns : Bool) : Keeps 0 0 s (s.showFrame p m start code frame tag ns).1 := by
  unfold State.showFrame
  refine (shiftFor_keeps s m start tag ns).trans ?_
  exact .ite (fun _ => .then_setSummary (setPanel_keeps (.inr (Nat.min_le_right _ _))))
    fun _ => setPanel_keeps (.inr (Nat.min_le_right _ _))

theorem refreshPanel_keeps (s : State) (start : Time) (p : Panel) : Keeps 0 0 s (s.refreshPanel start p).1 := by
  unfold State.refreshPanel
  split
  · have hs := setEye_keeps s p (e := (s.fri.eyes.get p).select.2) Eye.select_ok
    simp only
    split
    · exact hs.trans (showFrame_keeps _ _ _ _ _ _ _ _)
    · exact hs.trans (showFrame_keeps _ _ _ _ _ _ _ _)
    · exact hs.trans (setPanel_keeps (.inr (Nat.zero_le _)))
  · exact .refl 0 s

theorem finishRefresh_keeps (s : State) : Keeps 0 0 s s.finishRefresh := by
  unfold State.finishRefresh
  split
  · exact .refl 0 s
  · refine .then_reportIf (Keeps.trans ?_ (refreshPanel_keeps _ _ _))
    exact .setSco_same rfl

theorem beginRefresh_keeps (s : State) (p : Panel) (due : Nat) : Keeps 0 0 s (s.beginRefresh p due) := by
  have hu : Keeps 0 0 s ((s.setSco { s.sco with
      latestRefresh := s.tas.now, refreshDue := some (due + us s.refreshPeriod) }).refreshPanel s.tas.now p).1 :=
    Keeps.andThen (.setSco_same (by rfl)) (refreshPanel_keeps _ _ _)
  refine .ite (fun _ => hu.then_setSco rfl) fun _ => Keeps.trans (hu.then_setSco ?_) (finishRefresh_keeps _)
  rfl

theorem deliverRefresh_keeps (s : State) (due : Nat) : Keeps 0 0 s (s.deliverRefresh due) := by
  unfold State.deliverRefresh
  have ht := Keeps.setTurns s s.turns.tail
  simp only
  split
  · exact (ht.trans (beginRefresh_keeps _ _ _)).trans (finishRefresh_keeps _)
  · exact ht.trans (beginRefresh_keeps _ _ _)

theorem settleRefresh_keeps (s : State) : Keeps 0 0 s s.settleRefresh := by
  unfold State.settleRefresh
  have ht : Keeps 0 0 s (if s.sco.anyShowing then s else s.setSco { s.sco with refreshDue := none }) :=
    .ite (fun _ => .refl 0 s) fun _ => .setSco_same rfl
  simp only
  split
  · exact ht
  · exact ht.trans (.ite (fun _ => .refl 0 _) fun _ => finishRefresh_keeps _)

theorem panelAnswer_keeps (s : State) (st : Status) (ps : List Byte) : Keeps 0 0 s (s.panelAnswer st ps).state := by
  cases ps
  · exact takeFree_keeps s
  · exact .refl 0 s

theorem panelsOn_keeps (ps : List Byte) (s : State) : (panelsOn ps s).Kept s := by
  unfold panelsOn
  split
  · exact panelAnswer_keeps s _ ps
  · split
    · exact panelAnswer_keeps s _ ps
    · split
      · exact panelAnswer_keeps s _ ps
      · simp only
        split
        · exact panelAnswer_keeps s _ ps
        · exact ⟨nofun, updatePanels_keeps (f := fun c => { c with
          state := .rampUp, rampEnd := s.osc + ms 12, longOp := .on }) (fun c => Nat.le_refl _) _ s⟩

theorem panelsOff_keeps (ps : List Byte) (s : State) : (panelsOff ps s).Kept s := by
  unfold panelsOff
  split
  · exact panelAnswer_keeps s _ ps
  · split
    · exact panelAnswer_keeps s _ ps
    · simp only
      split
      · exact panelAnswer_keeps s _ ps
      · exact ⟨nofun, (updatePanels_keeps (fun _ => Nat.zero_le _) _ s).trans (settleRefresh_keeps _)⟩

theorem panelsShow_keeps (ps : List Byte) (s : State) : Keeps 0 0 s (panelsShow ps s).state := by
  unfold panelsShow
  split
  · exact panelAnswer_keeps s _ ps
  · rename_i names _
    split
    · exact panelAnswer_keeps s _ ps
    · refine (updatePanels_keeps (f := fun c => { c with state := .showing, applied := 0, window := none })
        (fun _ => Nat.zero_le _) names s).trans ?_
      exact (Keeps.ite (fun _ => .refl 0 _) fun _ => deliverRefresh_keeps _ _).trans (panelAnswer_keeps _ _ _)

theorem panelsStandby_keeps (ps : List Byte) (s : State) : Keeps 0 0 s (panelsStandby ps s).state := by
  unfold panelsStandby
  split
  · exact panelAnswer_keeps s _ ps
  · rename_i names _
    split
    · exact panelAnswer_keeps s _ ps
    · exact ((updatePanels_keeps (f := fun c => c.leave .standby) (fun _ => Nat.zero_le _) names s).trans
        (settleRefresh_keeps _)).trans (panelAnswer_keeps _ _ _)

theorem setEmission_keeps (ps : List Byte) (s : State) : Keeps 0 0 s (setEmission ps s).state := by
  unfold setEmission
  split
  · exact .refl 0 s
  · split
    · exact .refl 0 s
    · rename_i names _
      exact updatePanels_keeps (f := fun c => { c with requested := min (field ps 1 2) 1023 })
        (fun _ => Nat.le_refl _) names s

theorem setPanelGeometry_keeps (ps : List Byte) (s : State) : Keeps 0 0 s (setPanelGeometry ps s).state := by
  unfold setPanelGeometry
  split
  · exact .refl 0 s
  · exact .setSco_same rfl

theorem readScanStatus_keeps (ps : List Byte) (s : State) : Keeps 0 0 s (readScanStatus ps s).state := by
  unfold readScanStatus
  split
  · exact .refl 0 s
  · exact .ite (fun _ => .setSco (.inl (Nat.le_refl _)) (.inl (Nat.le_refl _))) fun _ => .refl 0 s

/-- Requests in progress that stop waiting for a panel are still the same requests. -/
theorem unramp_resets (e : InProgress) (p : Panel) : (e.unramp p).resets = e.resets := by
  obtain ⟨k, t, r⟩ := e
  cases r <;> rfl

theorem unrampAll_keeps (s : State) (p : Panel) :
    Keeps 0 0 s (s.setMge { s.mge with inProgress := s.mge.inProgress.map (fun e => e.unramp p) }) := by
  refine ⟨⟨rfl, .refl _, fun h => { h with }, fun d hd => ?_⟩, fun h => h,
    fun h => h.mono rfl rfl fun c => by cases c <;> exact id⟩
  have hl : ((s.mge.inProgress.map (fun e => e.unramp p)).filter fun e => !e.resets).length =
      (s.mge.inProgress.filter fun e => !e.resets).length := by
    rw [List.filter_map, List.length_map]
    congr 2
    funext e
    simp [unramp_resets]
  unfold State.owes at hd ⊢
  rw [State.outgoing_length] at hd ⊢
  simp only [State.setMge_mge, State.setMge_rch, hl]
  exact hd

theorem rampsDone_resets (e : InProgress) (h : e.rampsDone = true) : e.resets = false := by
  unfold InProgress.rampsDone at h
  unfold InProgress.resets
  split at h
  · simp [*]
  · cases h

theorem endRamp_keeps (s : State) (p : Panel) (st : PanelState) : Keeps 0 0 s (s.endRamp p st) :=
  Keeps.trans ((setPanel_keeps (c := { s.panel p with state := st, longOp := .none })
    (.inl (Nat.le_refl _))).trans (unrampAll_keeps _ p)) (.finish _ rampsDone_resets _ _)

theorem ramps_resets (e : InProgress) (p : Panel) (h : e.ramps p = true) : e.resets = false := by
  unfold InProgress.ramps at h
  unfold InProgress.resets
  split at h
  · simp [*]
  · cases h

theorem force_applied (c : PanelCtl) (n : Nat) : (c.force n).applied ≤ c.applied := by
  unfold PanelCtl.force
  split
  · exact Nat.zero_le _
  · exact Nat.le_refl _

theorem forcePanels_keeps (s : State) : Keeps 0 0 s s.forcePanels := by
  refine ((updatePanels_keeps (fun c => force_applied c _) _ s).trans (settleRefresh_keeps _)).trans
    (.finish _ (fun e h => ?_) _ _)
  obtain ⟨p, -, hp⟩ := List.any_eq_true.mp (Bool.and_eq_true_iff.mp h).2
  exact ramps_resets e p hp

/-! ## The Sensor Sampler -/

theorem presenceReport_keeps (s : State) (c : Nat) : Keeps 0 0 s (s.presenceReport c) := .reportIf s _ _ _

/-- The presence state worked out, the cap with it. -/
theorem settlePresence_keeps (s : State) : Keeps 0 0 s s.settlePresence := by
  have hp : ∀ p, Keeps 0 0 s (s.setSmp { s.smp with presence := p }).updateCap := fun p =>
    .updateCap ⟨rfl, .refl _, fun h => { h with }, fun _ h => h⟩ id
  exact .ite (fun _ => .refl 0 s) fun _ => (hp _).trans (presenceReport_keeps _ _)

theorem Keeps.then_setSmp {m n : Nat} {s t : State} {b : Smp} (h : Keeps m n s t) (hr : b.ring = t.smp.ring)
    (hp : b.presence = t.smp.presence) : Keeps m n s (t.setSmp b) := h.andThen (.setSmp hr hp)

theorem judgeFault_keeps (s : State) (b : Bool) (d : Device) : Keeps 0 0 s (s.judgeFault b d) := by
  refine .ite (fun _ => .ite (fun _ => .refl 0 s) fun _ => .ite (fun _ => ?_) fun _ => .setSmp rfl rfl) fun _ => ?_
  · exact .then_reportIf (.then_setSmp (.then_setSummary (.setSmp rfl rfl)) rfl rfl)
  · exact .ite (fun _ => .then_reportIf (.setSmp rfl rfl)) fun _ => .setSmp rfl rfl

theorem judgeSetFault_keeps (s : State) (st : SampleSet) (d : Device) : Keeps 0 0 s (s.judgeSetFault st d) :=
  .ite (fun _ => judgeFault_keeps s _ d) fun _ => .refl 0 s

/-- An OCCUPIED slot may take another item of its class. -/
theorem State.slotsHeld.replace {s : State} {r : Rch} {i : Fin 4} {y z : Item} (hy : s.rch.slots[i] = .occupied y)
    (hz : z.itemClass = y.itemClass) (hr : r.slots = s.rch.slots.set i (.occupied z))
    (hp : r.pendingMotion = s.rch.pendingMotion) (h : s.slotsHeld) : (s.setRch r).slotsHeld := by
  obtain ⟨hl, ht, hd, hn⟩ := h
  have hold : ∀ c, r.holding c = s.rch.holding c := fun c => by
    have := Rch.holding_set hr c
    simp only [hy, TxSlot.item, Option.map_some, hz] at this
    exact Nat.add_right_cancel this
  have hw : ∀ c, (s.setRch r).waiting c = s.waiting c := fun c => by
    cases c
    case motion => simp only [State.waiting, State.setRch_rch, hp]
    all_goals rfl
  refine ⟨fun c => (hold c).symm ▸ hl c, fun j => ?_, fun k => ?_, fun k => ⟨fun c hc hlim j => ?_,
    fun hu hs => absurd hy ((hn k).2 hu hs i _)⟩⟩
  · rw [State.setRch_rch, State.setRch_lnk, hr, getSlot_set]
    split
    · rename_i e
      rw [← ht j, ← e, hy]
      exact ⟨fun ⟨_, e⟩ => (nomatch e), fun ⟨_, e⟩ => (nomatch e)⟩
    · exact ht j
  · have := (hd k).2 i
    rw [hy] at this
    cases this
  · rw [State.setRch_rch, hr, getSlot_set]
    split
    · exact nofun
    · rw [hw] at hc
      rw [State.setRch_rch, hold] at hlim
      exact (hn k).1 c hc hlim j

/-- A motion report may be pending while a slot holds one, which is the class's limit. -/
theorem State.slotsHeld.pend {s : State} {i : Fin 4} (p : List Byte)
    (hi : s.rch.slots[i].item.map Item.itemClass = some .motion) (h : s.slotsHeld) :
    (s.setRch (s.rch.pend p)).slotsHeld := by
  obtain ⟨hl, ht, hd, hn⟩ := h
  refine ⟨hl, ht, hd, fun k => ⟨fun c hc hlim => ?_, (hn k).2⟩⟩
  cases c with
  | motion =>
    have hpos : 0 < s.rch.holding .motion :=
      List.countP_pos_iff.mpr ⟨s.rch.slots[i], by simp, decide_eq_true hi⟩
    change s.rch.holding .motion < 1 at hlim
    omega
  | reply => exact (hn k).1 .reply hc hlim
  | report => exact (hn k).1 .report hc hlim
  | capture => exact (hn k).1 .capture hc hlim

theorem offerMotion_keeps (s : State) (p : List Byte) : Keeps 0 0 s (s.offerMotion p) := by
  have hpend : Lax 0 0 s (s.setRch (s.rch.pend p)) := ⟨rfl, .refl _, fun h => { h with }, fun _ h => h⟩
  unfold State.offerMotion
  split
  · exact .place_of hpend id id
  · rename_i i hi
    have hcl : s.rch.slots[i].item.map Item.itemClass = some .motion := by simpa using List.find?_some hi
    split
    · rename_i y hy
      have hm : y.itemClass = .motion := by
        rw [hy] at hcl
        simpa [TxSlot.item] using hcl
      refine ⟨⟨rfl, .refl _, fun h => { h with }, fun d hd => ?_⟩, id, .replace (z := .motion p) hy hm.symm rfl rfl⟩
      have hc := countP_set (fun t => t.reply?.isSome) s.rch.slots i (.occupied (.motion p))
      have h0 : (TxSlot.occupied y).reply?.isSome = false := by cases y <;> first | rfl | cases hm
      have h1 : (TxSlot.occupied (.motion p)).reply?.isSome = false := rfl
      rw [hy] at hc
      simp only [h0, h1, Bool.false_eq_true, if_false, Nat.add_zero] at hc
      unfold State.owes at hd ⊢
      rw [State.outgoing_length] at hd ⊢
      simp only [State.setRch_mge, State.setRch_rch]
      rw [hc]
      exact hd
    · exact ⟨hpend, id, .pend p hcl⟩

theorem joinBatch_keeps (s : State) (r : SampleRecord) : Keeps 0 0 s (s.joinBatch r) := by
  refine .ite (fun _ => .ite (fun _ => Keeps.trans ?_ (offerMotion_keeps _ _)) fun _ => .setSmp rfl rfl) fun _ =>
    .refl 0 s
  exact .setSmp rfl rfl

theorem push64_length {α : Type} (l : List α) (a : α) (h : l.length ≤ 64) : (push64 l a).length ≤ 64 := by
  unfold push64
  rw [List.length_append, List.length_singleton]
  split
  · omega
  · rw [List.length_tail]
    omega

theorem push64_map {α β : Type} (f : α → β) (l : List α) (a : α) : (push64 l a).map f = push64 (l.map f) (f a) := by
  unfold push64
  rw [List.map_append, List.length_map]
  split
  · rfl
  · rw [List.map_tail]
    rfl

/-- The record enters both rings, which hold the same sequence numbers. -/
theorem storeRecord_keeps (s : State) (r : SampleRecord) : Keeps 0 0 s (s.storeRecord r) := by
  refine ⟨⟨rfl, .refl _, fun h => { h with rings := ?_ }, fun _ h => h⟩, fun h => h, fun h => h⟩
  obtain ⟨hr, hh, he⟩ := h.rings
  refine ⟨push64_length _ _ ?_, push64_length _ _ ?_, ?_⟩
  · split
    · exact Nat.zero_le _
    · exact hr
  · split
    · exact Nat.zero_le _
    · exact hh
  · refine (push64_map _ _ _).trans (Eq.trans ?_ (push64_map _ _ _).symm)
    cases (nextSeq s.smp.lastSeq).2
    · simp only [Bool.false_eq_true, if_false]
      rw [he]
    · rfl

theorem judgeStillWear_same (m : Smp) (r : SampleRecord) (n k : Nat) :
    ((m.judgeStill r n).judgeWear r k).ring = m.ring ∧ ((m.judgeStill r n).judgeWear r k).presence = m.presence := by
  unfold Smp.judgeWear
  split
  · exact ⟨rfl, rfl⟩
  · simp only
    split
    · exact ⟨rfl, rfl⟩
    · split <;> exact ⟨rfl, rfl⟩

theorem completeSet_keeps (s : State) (st : SampleSet) : Keeps 0 0 s (s.completeSet st) := by
  have hf := ((storeRecord_keeps s (s.smp.recordOf st)).trans (judgeSetFault_keeps _ st .inertial)).trans
    (judgeSetFault_keeps _ st .proximity)
  refine Keeps.trans (Keeps.trans (hf.then_setSmp ?_ ?_) (settlePresence_keeps _)) (joinBatch_keeps _ _)
  · exact (judgeStillWear_same _ _ _ _).1
  · exact (judgeStillWear_same _ _ _ _).2

theorem nextRead_keeps (s : State) (st : SampleSet) (n : Nat) : Keeps 0 0 s (s.nextRead st n) :=
  .ite (fun _ => completeSet_keeps s _) fun _ => .setSmp rfl rfl

theorem goodRead_keeps (s : State) (st : SampleSet) (x : SensorSlot) (w : BitVec 16) :
    Keeps 0 0 s (s.goodRead st x w).1 := by
  unfold State.goodRead
  split
  · exact .refl 0 s
  · exact .setSmp rfl rfl

theorem dropDevice_keeps (s : State) (l : List SensorSlot) (d : Device) : Keeps 0 0 s (s.dropDevice l d) :=
  .ite (fun _ => .refl 0 s) fun _ => .ite (fun _ => .then_reportIf (.setSmp rfl rfl)) fun _ => .setSmp rfl rfl

theorem applySchedule_keeps (s : State) (l : List SensorSlot) : Keeps 0 0 s (s.applySchedule l) := by
  refine Keeps.trans (t := s.setSmp { s.smp with
    slotList := l, stillTime := 0, previous := .const none, removalRun := 0, returnRun := 0
    removed := s.smp.removed && hasProx l }) (.setSmp rfl rfl) ?_
  exact (settlePresence_keeps _).trans ((dropDevice_keeps _ l .inertial).trans
    ((dropDevice_keeps _ l .proximity).trans (.setSmp rfl rfl)))

theorem setSchedule_keeps (ps : List Byte) (s : State) : Keeps 0 0 s (setSchedule ps s).state := by
  unfold setSchedule
  split
  · exact .refl 0 s
  · split
    · exact .refl 0 s
    · exact applySchedule_keeps s _

theorem setSamplingRate_keeps (ps : List Byte) (s : State) : Keeps 0 0 s (setSamplingRate ps s).state := by
  unfold setSamplingRate
  split
  · exact .refl 0 s
  · exact .setSmp rfl rfl

theorem setCalibration_keeps (ps : List Byte) (s : State) : Keeps 0 0 s (setCalibration ps s).state := by
  unfold setCalibration
  split
  · exact .refl 0 s
  · split
    · exact .refl 0 s
    · split
      · exact .setSmp rfl rfl
      · exact .refl 0 s

theorem setStillness_keeps (ps : List Byte) (s : State) : Keeps 0 0 s (setStillness ps s).state := by
  unfold setStillness
  split
  · exact .refl 0 s
  · exact .setSmp rfl rfl

theorem setWear_keeps (ps : List Byte) (s : State) : Keeps 0 0 s (setWear ps s).state := by
  unfold setWear
  split
  · exact .refl 0 s
  · exact .setSmp rfl rfl

theorem setMotionReporting_keeps (ps : List Byte) (s : State) : Keeps 0 0 s (setMotionReporting ps s).state := by
  unfold setMotionReporting
  split
  · exact .refl 0 s
  · exact .setSmp rfl rfl

theorem readSamples_keeps (ps : List Byte) (s : State) : Keeps 0 0 s (readSamples ps s).state := by
  unfold readSamples
  split
  · exact .refl 0 s
  · simp only
    split <;> exact .refl 0 s

theorem readMotionStatus_keeps (ps : List Byte) (s : State) : Keeps 0 0 s (readMotionStatus ps s).state := by
  unfold readMotionStatus
  split
  · exact .refl 0 s
  · exact .ite (fun _ => .setSmp rfl rfl) fun _ => .refl 0 s

/-! ## The Audio Unit -/

/-- A block whose time no queued block has keeps the queue in strict order. -/
theorem insertBlock_sorted (b : AudioBlock) : ∀ {q : List AudioBlock},
    q.Pairwise (fun x y => x.time.toNat < y.time.toNat) → (∀ c ∈ q, c.time ≠ b.time) →
    (insertBlock b q).Pairwise (fun x y => x.time.toNat < y.time.toNat) := by
  intro q
  induction q with
  | nil => intro _ _; exact List.pairwise_singleton _ _
  | cons c l ih =>
    intro h hb
    obtain ⟨hc, hl⟩ := List.pairwise_cons.mp h
    unfold insertBlock
    split
    · rename_i hlt
      refine List.pairwise_cons.mpr ⟨fun x hx => ?_, h⟩
      rcases List.mem_cons.mp hx with rfl | hx
      · exact hlt
      · exact hlt.trans (hc x hx)
    · rename_i hge
      have hne : c.time.toNat ≠ b.time.toNat := fun e => hb c List.mem_cons_self (BitVec.eq_of_toNat_eq e)
      refine List.pairwise_cons.mpr ⟨fun x hx => ?_, ih hl fun d hd => hb d (List.mem_cons_of_mem _ hd)⟩
      have hm : x ∈ insertBlock b l → x = b ∨ x ∈ l := by
        clear ih hl h hb hc hx
        induction l with
        | nil => simp [insertBlock]
        | cons d l ih =>
          unfold insertBlock
          split
          · simp
          · intro hx
            rcases List.mem_cons.mp hx with rfl | hx
            · simp
            · rcases ih hx with h | h <;> simp [h]
      rcases hm hx with rfl | hx
      · omega
      · exact hc x hx

theorem insertBlock_length (b : AudioBlock) (q : List AudioBlock) : (insertBlock b q).length = q.length + 1 := by
  induction q with
  | nil => rfl
  | cons c l ih =>
    unfold insertBlock
    split <;> simp [ih]

/-- The Audio Unit with a Playout Queue that is part of what it was. -/
theorem setAud_suffix {s : State} {b : Aud} (hq : b.queue <:+ s.aud.queue)
    (hc : b.captureQueue = s.aud.captureQueue) (ha : b.requestedAtt = s.aud.requestedAtt) :
    Keeps 0 0 s (s.setAud b) :=
  .setAud (fun h g => ⟨hq.length_le.trans h, g.sublist hq.sublist⟩) (by rw [hc]; exact id) (by rw [hc]; exact id)
    (by rw [ha]; exact id)

theorem starve_keeps (s : State) : Keeps 0 0 s s.starve :=
  .ite (fun _ => .refl 0 s) fun _ => .then_setSummary (.setAud_same rfl rfl rfl)

theorem examine_keeps (s : State) (first : Nat) : Keeps 0 0 s (s.examine first) := by
  obtain ⟨late, rest, hq, -, -, hr⟩ := examineQueue_spec s.tas.now.toNat s.aud.queue
  have hsuf : rest <:+ s.aud.queue := ⟨late, hq.symm⟩
  unfold State.examine
  simp only
  cases rest with
  | nil =>
    simp only at hr
    rw [hr]
    simp only
    have : Keeps 0 0 s _ := setAud_suffix (b := { s.aud with
      counters := { s.aud.counters with late := satAdd s.aud.counters.late (examineQueue s.tas.now.toNat s.aud.queue).2 }
      queue := [] }) (List.nil_suffix) rfl rfl
    exact .ite (fun _ => this) fun _ => this.trans (starve_keeps _)
  | cons b l =>
    rcases hr with ⟨-, hr⟩ | ⟨-, -, hr⟩ <;> rw [hr]
    · exact setAud_suffix hsuf rfl rfl
    · exact setAud_suffix ((List.suffix_cons b l).trans hsuf) rfl rfl

theorem acceptBlock_keeps {s : State} {b : AudioBlock} (hd : s.aud.duplicates b = false)
    (hl : s.aud.queue.length < 16) : Keeps 0 0 s (s.acceptBlock b) := by
  have ht : Keeps 0 0 s (s.setAud { s.aud with queue := insertBlock b s.aud.queue }) := by
    refine .setAud (fun _ g => ⟨?_, insertBlock_sorted b g fun c hc e => ?_⟩) id id id
    · simp only [insertBlock_length]
      omega
    · have : s.aud.duplicates b = true := by
        unfold Aud.duplicates
        rw [List.any_eq_true.mpr ⟨c, hc, decide_eq_true e⟩, Bool.true_or]
      rw [hd] at this
      cases this
  unfold State.acceptBlock
  simp only
  split
  · exact ht.trans (examine_keeps _ _)
  · exact ht.trans (examine_keeps _ _)
  · exact .ite (fun _ => ht.trans (examine_keeps _ _)) fun _ => ht
  · exact ht

theorem audioBlock_keeps (s : State) (p : List Byte) : Keeps 0 0 s (s.audioBlock p) := by
  unfold State.audioBlock
  simp only
  split
  · exact .setAud_same rfl rfl rfl
  · split
    · exact .setAud_same rfl rfl rfl
    · rename_i hd
      split
      · exact .then_setSummary (.setAud_same rfl rfl rfl)
      · exact acceptBlock_keeps (Bool.eq_false_iff.mpr hd) (by omega)

theorem audioStep_keeps (s : State) : Keeps 0 0 s s.audioStep := by
  unfold State.audioStep
  split
  · exact .ite (fun _ => examine_keeps s _) fun _ => .refl 0 s
  · exact .refl 0 s

theorem endBlock_keeps (s : State) (n : Nat) : Keeps 0 0 s (s.endBlock n) := by
  refine Keeps.trans (t := s.setAud { s.aud with current := none }) (.setAud_same rfl rfl rfl) ?_
  exact .ite (fun _ => starve_keeps _) fun _ => examine_keeps _ _

theorem setAttenuation_keeps (ps : List Byte) (s : State) : Keeps 0 0 s (setAttenuation ps s).state := by
  unfold setAttenuation
  split
  · exact .refl 0 s
  · exact .setAud (fun h g => ⟨h, g⟩) id id fun _ => Nat.min_le_right _ _

theorem startCapture_keeps (ps : List Byte) (s : State) : Keeps 0 0 s (startCapture ps s).state := by
  unfold startCapture
  split
  · exact .refl 0 s
  · split
    · exact .refl 0 s
    · split
      · exact .refl 0 s
      · exact .setAud_same rfl rfl rfl

theorem stopCapture_keeps (ps : List Byte) (s : State) : Keeps 0 0 s (stopCapture ps s).state := by
  unfold stopCapture
  split
  · exact .refl 0 s
  · exact .setAud_same rfl rfl rfl

theorem queueCapture_keeps (s : State) (b : CaptureBlock) : Keeps 0 0 s (s.queueCapture b) := by
  refine .ite (fun hl => ?_) fun hl => Keeps.trans (Keeps.then_setSummary ?_) (.place _)
  · refine .place_of ⟨rfl, .refl _, fun h => { h with queues := ?_ }, fun _ h => h⟩ id id
    obtain ⟨h1, -, h3, h4⟩ := h.queues
    refine ⟨h1, ?_, h3, h4⟩
    simp only [State.setAud_aud, List.length_append, List.length_singleton]
    omega
  · refine .setAud (fun h g => ⟨h, g⟩) (fun h => ?_) (fun h => ?_) id
    · simp only [List.length_append, List.length_tail, List.length_singleton]
      omega
    · rw [h] at hl
      exact absurd (by decide) hl

theorem inputFrame_keeps (s : State) (x y : BitVec 16) : Keeps 0 0 s (s.inputFrame x y) := by
  refine .ite (fun _ => .ite (fun _ => Keeps.trans ?_ (queueCapture_keeps _ _)) fun _ => .setAud_same rfl rfl rfl)
    fun _ => .refl 0 s
  exact .setAud_same rfl rfl rfl

theorem readAudioStatus_keeps (ps : List Byte) (s : State) : Keeps 0 0 s (readAudioStatus ps s).state := by
  unfold readAudioStatus
  split
  · exact .refl 0 s
  · exact .ite (fun _ => .setAud_same rfl rfl rfl) fun _ => .refl 0 s

end Sys2Proof.Machine
end

section
/-! What every step keeps, continued: the operations of the Power Manager, the Timebase, the Tether Link, the
Calibration Store and the Message Engine. -/

namespace Sys2Proof.Machine

/-! ## The Power Manager -/

/-- The Power Manager changed, and the cap worked out again. -/
theorem setPmg_updateCap_keeps {s : State} {b : Pmg} (hb : s.pmg.held → b.held) (hr : s.pmg.rowsHeld → b.rowsHeld) :
    Keeps 0 0 s (s.setPmg b).updateCap :=
  .updateCap ⟨rfl, .refl _, fun h => { h with power := hb h.power, rows := hr h.rows }, fun _ h => h⟩ id

theorem contractOf_bounds (g : Nat) : 2000 ≤ contractOf (clampNat 8 80 g) ∧ contractOf (clampNat 8 80 g) ≤ 20000 := by
  unfold contractOf clampNat
  omega

theorem powerGrant_keeps (ps : List Byte) (s : State) : Keeps 0 0 s (powerGrant ps s).state := by
  unfold powerGrant
  split
  · exact .refl 0 s
  · exact .setPmg (fun h => ⟨h.1, contractOf_bounds _⟩) rfl rfl rfl

/-- What a scan leaves of the Power Manager as it was. -/
structure Pmg.Scanned (p q : Pmg) : Prop where
  contract : q.contract = p.contract
  rows : q.rows = p.rows
  stage : q.stage = p.stage
  stillEmission : q.stillEmission = p.stillEmission

theorem Pmg.Scanned.refl (p : Pmg) : p.Scanned p := ⟨rfl, rfl, rfl, rfl⟩

theorem Pmg.judgePower_scanned (p : Pmg) : p.Scanned p.judgePower := by
  unfold Pmg.judgePower
  split
  · exact ⟨rfl, rfl, rfl, rfl⟩
  · split
    · split <;> exact ⟨rfl, rfl, rfl, rfl⟩
    · exact ⟨rfl, rfl, rfl, rfl⟩

theorem Pmg.addScan_scanned (p : Pmg) : p.Scanned p.addScan := by
  unfold Pmg.addScan
  split
  · exact .refl p
  · simp only
    split
    · obtain ⟨h1, h2, h3, h4⟩ := Pmg.judgePower_scanned { p with
        lastAverage := (_ + p.scanPower) / p.windowLength, window := some ⟨0, 0⟩ }
      exact ⟨h1, h2, h3, h4⟩
    · exact ⟨rfl, rfl, rfl, rfl⟩

theorem Pmg.measure_scanned (p : Pmg) (c : RailCodes) : p.Scanned (p.measure c) := by
  obtain ⟨h1, h2, h3, h4⟩ := Pmg.addScan_scanned { p with
    rails := c
    ts := tempStage p.ts c.temp.toNat
    bs := brownOutStage p.bs c.vin.toNat
    scanPower := railPower c }
  exact ⟨h1, h2, h3, h4⟩

/-- Stages measured and the stage in force worked out again. -/
theorem judgeStage_keeps {s : State} {b : Pmg} (h : s.pmg.Scanned b) : Keeps 0 0 s (s.setPmg b).judgeStage := by
  have hc : s.pmg.held → 2000 ≤ b.contract ∧ b.contract ≤ 20000 := fun k => by
    rw [h.contract]
    exact k.2
  refine .ite (fun he => .setPmg (fun k => ⟨he.symm, hc k⟩) h.rows h.stage h.stillEmission) fun _ =>
    .then_reportIf (.then_setSummary ?_)
  exact setPmg_updateCap_keeps (b := { b with
    stage := b.greatest, worst := max b.worst b.greatest, stageChanges := satInc b.stageChanges })
    (fun k => ⟨rfl, hc k⟩) (by unfold Pmg.rowsHeld; rw [h.rows]; exact id)

theorem beginEmergency_keeps (s : State) : Keeps 0 0 s s.beginEmergency := by
  refine .then_reportIf (.then_setSummary (Keeps.trans ?_ (forcePanels_keeps _)))
  exact .setPmg id rfl rfl rfl

theorem judgeEmergency_keeps (s : State) : Keeps 0 0 s s.judgeEmergency :=
  .ite (fun _ => .ite (fun _ => .then_reportIf (.setPmg id rfl rfl rfl)) fun _ => .refl 0 s) fun _ =>
    .ite (fun _ => .ite (fun _ => beginEmergency_keeps s) fun _ => .setPmg id rfl rfl rfl) fun _ =>
      .setPmg id rfl rfl rfl

theorem scan_keeps (s : State) (c : RailCodes) : Keeps 0 0 s (s.scan c) := by
  obtain ⟨h1, h2, h3, h4⟩ := s.pmg.measure_scanned c
  exact (judgeStage_keeps (b := { s.pmg.measure c with scanDue := s.pmg.scanDue + us 1000 })
    ⟨h1, h2, h3, h4⟩).trans (judgeEmergency_keeps _)

theorem ThrottleRow.before_iff (a b : ThrottleRow) : a.before b = true ↔
    b.emissionCap ≤ a.emissionCap ∧ a.minAttenuation ≤ b.minAttenuation ∧ b.maxRate.hz ≤ a.maxRate.hz := by
  simp [ThrottleRow.before, and_assoc]

/-- Four rows in order obey the three order conditions pair by pair. -/
theorem rowsOrdered_pairs {v : Vector ThrottleRow 4} (h : rowsOrdered v = true) (j k : Fin 4) (hjk : j < k) :
    v[k].emissionCap ≤ v[j].emissionCap ∧ v[j].minAttenuation ≤ v[k].minAttenuation ∧
      v[k].maxRate.hz ≤ v[j].maxRate.hz := by
  simp only [rowsOrdered, Bool.and_eq_true, ThrottleRow.before_iff] at h
  obtain ⟨⟨h01, h12⟩, h23⟩ := h
  fin_cases j <;> fin_cases k <;> first | exact absurd hjk (by decide) | (dsimp only [Fin.getElem_fin]; omega)

theorem setThrottleRow_keeps (ps : List Byte) (s : State) : Keeps 0 0 s (setThrottleRow ps s).state := by
  unfold setThrottleRow
  split
  · exact .refl 0 s
  · split
    · simp only
      split
      · rename_i hi ho
        refine setPmg_updateCap_keeps (b := { s.pmg with rows := s.pmg.rows.set (field ps 0 1) _ hi }) id
          fun h => ⟨fun i => ?_, rowsOrdered_pairs ho⟩
        simp only [Fin.getElem_fin, Vector.getElem_set]
        split
        · exact ⟨Nat.min_le_right _ _, Nat.min_le_right _ _⟩
        · exact h.1 i
      · exact .refl 0 s
    · exact .refl 0 s

theorem setPowerPolicy_keeps (ps : List Byte) (s : State) : Keeps 0 0 s (setPowerPolicy ps s).state := by
  unfold setPowerPolicy
  split
  · exact .refl 0 s
  · refine setPmg_updateCap_keeps (fun h => ?_) fun h => ?_ <;> split <;> exact h

theorem readPowerStatus_keeps (ps : List Byte) (s : State) : Keeps 0 0 s (readPowerStatus ps s).state := by
  unfold readPowerStatus
  split
  · exact .refl 0 s
  · simp only
    split <;> exact .setPmg id rfl rfl rfl

/-! ## The Action Table -/

/-- Of two entries in table order, the first may stand before the second. -/
def Action.inOrder (a b : Action) : Prop :=
  match a.trigger.due, b.trigger.due with
  | some x, some y => x.toNat ≤ y.toNat
  | none, some _ => False
  | _, none => True

theorem Action.inOrder_of_precedes {a b : Action} (h : a.precedes b = true) : a.inOrder b := by
  unfold Action.precedes at h
  unfold Action.inOrder
  cases ha : a.trigger.due <;> cases hb : b.trigger.due <;> simp [ha, hb] at h ⊢
  omega

theorem Action.inOrder_of_not_precedes {a b : Action} (h : a.precedes b = false) : b.inOrder a := by
  unfold Action.precedes at h
  unfold Action.inOrder
  cases ha : a.trigger.due <;> cases hb : b.trigger.due <;> simp [ha, hb] at h ⊢
  omega

theorem Action.inOrder_trans {a b c : Action} (h : a.inOrder b) (k : b.inOrder c) : a.inOrder c := by
  unfold Action.inOrder at h k ⊢
  cases ha : a.trigger.due <;> cases hb : b.trigger.due <;> cases hc : c.trigger.due <;>
    simp only [ha, hb, hc] at h k ⊢
  omega

theorem insertAction_perm (a : Action) (l : List Action) : (insertAction a l).Perm (a :: l) := by
  induction l with
  | nil => exact .refl _
  | cons b l ih =>
    unfold insertAction
    split
    · exact .refl _
    · exact (ih.cons b).trans (.swap a b l)

theorem insertAction_ordered (a : Action) {l : List Action} (h : l.Pairwise Action.inOrder) :
    (insertAction a l).Pairwise Action.inOrder := by
  induction l with
  | nil => exact List.pairwise_singleton _ _
  | cons b l ih =>
    obtain ⟨hb, hl⟩ := List.pairwise_cons.mp h
    unfold insertAction
    split
    · rename_i hp
      have hab := Action.inOrder_of_precedes hp
      refine List.pairwise_cons.mpr ⟨fun c hc => ?_, h⟩
      rcases List.mem_cons.mp hc with rfl | hc
      · exact hab
      · exact Action.inOrder_trans hab (hb c hc)
    · rename_i hp
      refine List.pairwise_cons.mpr ⟨fun c hc => ?_, ih hl⟩
      rcases List.mem_cons.mp ((insertAction_perm a l).mem_iff.mp hc) with rfl | hc
      · exact Action.inOrder_of_not_precedes (Bool.eq_false_iff.mpr hp)
      · exact hb c hc

/-- Entries that leave the table leave the others in order. -/
theorem setTable_keeps {s : State} {b : Tas} (h : b.table.Sublist s.tas.table) : Keeps 0 0 s (s.setTas b) :=
  .setTas fun hk ho => ⟨⟨h.length_le.trans hk.1, hk.2.sublist (h.map _)⟩, ho.sublist h⟩

theorem removeAction_keeps (s : State) (id : Byte) : Keeps 0 0 s (s.removeAction id) :=
  setTable_keeps List.filter_sublist

theorem deliver_keeps (k : ActionKind) (ps : List Byte) (s : State) : Keeps 0 0 s (k.deliver ps s).state := by
  cases k with
  | setDisplayMode => exact setDisplayMode_keeps ps s
  | setEmission => exact setEmission_keeps ps s
  | panelsShow => exact panelsShow_keeps ps s
  | panelsStandby => exact panelsStandby_keeps ps s
  | setSamplingRate => exact setSamplingRate_keeps ps s
  | setAttenuation => exact setAttenuation_keeps ps s
  | startCapture => exact startCapture_keeps ps s
  | stopCapture => exact stopCapture_keeps ps s
  | marker => exact .refl 0 s

theorem fire_keeps (s : State) (e : Action) (c : FireCause) (t : Time) : Keeps 0 0 s (s.fire e c t) :=
  .then_reportIf (deliver_keeps _ _ s)

theorem fireAll_keeps (es : List Action) (c : FireCause) (t : Time) (s : State) : Keeps 0 0 s (s.fireAll es c t) := by
  induction es generalizing s with
  | nil => exact .refl 0 s
  | cons e l ih => exact ((removeAction_keeps s e.id).trans (fire_keeps _ e c t)).trans (ih _)

theorem setTime_keeps (s : State) (t : Time) : Keeps 0 0 s (s.setTime t) := by
  have hu : Keeps 0 0 s (s.setTas { s.tas with now := t, valid := true }) := setTable_keeps (List.Sublist.refl _)
  exact .ite (fun _ => (hu.trans (fireAll_keeps _ _ _ _)).trans (audioStep_keeps _)) fun _ => hu

theorem stepTime_keeps (s : State) (t : Time) (o : Int) : Keeps 0 0 s (s.stepTime t o) := by
  have hu : Keeps 0 0 s (s.setTas { s.tas with now := t, stepCount := satInc s.tas.stepCount }) :=
    setTable_keeps (List.Sublist.refl _)
  refine .ite (fun _ => Keeps.trans (Keeps.trans ?_ (fireAll_keeps _ _ _ _)) (audioStep_keeps _)) fun _ => ?_ <;>
    exact hu.then_setSummary.then_reportIf

theorem timeMark_keeps (s : State) (p : List Byte) : Keeps 0 0 s (s.timeMark p) := by
  have hu : Keeps 0 0 s (s.setTas { s.tas with markCount := satInc s.tas.markCount }) :=
    setTable_keeps (List.Sublist.refl _)
  exact .ite (fun _ => setTable_keeps (List.Sublist.refl _)) fun _ =>
    .ite (fun _ => .ite (fun _ => hu) fun _ => hu.trans (stepTime_keeps _ _ _)) fun _ => hu.trans (setTime_keeps _ _)

theorem readTime_keeps (ps : List Byte) (s : State) : Keeps 0 0 s (readTime ps s).state := by
  unfold readTime
  split
  · exact .refl 0 s
  · exact .ite (fun _ => setTable_keeps (List.Sublist.refl _)) fun _ => .refl 0 s

theorem actionAnswer_keeps (s : State) (st : Status) (d : Nat) (ps : List Byte) :
    Keeps 0 0 s (s.actionAnswer st d ps).state := by
  cases ps
  · exact takeFree_keeps s
  · exact .refl 0 s

/-- An entry that passes the checks has an id of its own and a place in the table. -/
theorem newAction_ok {s : State} {ps : List Byte} {e : Action} (h : s.newAction ps = .ok e) :
    (∀ x ∈ s.tas.table, x.id ≠ e.id) ∧ s.tas.table.length < 16 := by
  unfold State.newAction at h
  split at h
  · cases h
  · split at h
    · cases h
    · split at h
      · cases h
      · split at h
        · cases h
        · split at h
          · cases h
          · rename_i hid
            split at h
            · cases h
            · cases h
              refine ⟨fun x hx e => hid ?_, by omega⟩
              exact List.any_eq_true.mpr ⟨x, hx, decide_eq_true e⟩

theorem insertAction_keeps {s : State} {e : Action} (hid : ∀ x ∈ s.tas.table, x.id ≠ e.id)
    (hl : s.tas.table.length < 16) :
    Keeps 0 0 s (s.setTas { s.tas with table := insertAction e s.tas.table }) := by
  have hp := insertAction_perm e s.tas.table
  refine .setTas fun hk ho => ⟨⟨?_, ?_⟩, insertAction_ordered e ho⟩
  · simp only [hp.length_eq, List.length_cons]
    omega
  · refine (hp.map Action.id).nodup_iff.mpr (List.nodup_cons.mpr ⟨fun hm => ?_, hk.2⟩)
    obtain ⟨x, hx, he⟩ := List.mem_map.mp hm
    exact hid x hx he

theorem addAction_keeps (ps : List Byte) (s : State) : Keeps 0 0 s (addAction ps s).state := by
  unfold addAction
  split
  · exact actionAnswer_keeps s _ _ _
  · rename_i e he
    obtain ⟨hid, hl⟩ := newAction_ok he
    split
    · exact (fire_keeps s e _ _).trans (actionAnswer_keeps _ _ _ _)
    · exact (insertAction_keeps hid hl).trans (actionAnswer_keeps _ _ _ _)

theorem cancelAction_keeps (ps : List Byte) (s : State) : Keeps 0 0 s (cancelAction ps s).state := by
  unfold cancelAction
  split
  · exact .refl 0 s
  · simp only
    split
    · exact removeAction_keeps s _
    · exact .refl 0 s

theorem listActions_keeps (ps : List Byte) (s : State) : Keeps 0 0 s (listActions ps s).state := by
  unfold listActions
  split <;> exact .refl 0 s

theorem groupTrigger_keeps (ps : List Byte) (s : State) : Keeps 0 0 s (groupTrigger ps s).state := by
  unfold groupTrigger
  split
  · exact .refl 0 s
  · split
    · exact .refl 0 s
    · exact fireAll_keeps _ _ _ s

/-! ## The Tether Link -/

/-- The link changed with U0 and the loopback as they were, in a state that is down as before. -/
theorem setLnk_keeps {s : State} {b : Lnk} (hs : b.state = .down ↔ s.lnk.state = .down) (hu : b.u0 = s.lnk.u0)
    (hl : b.loopback = s.lnk.loopback) : Keeps 0 0 s (s.setLnk b) :=
  .setLnk hs hu (by unfold Lnk.suspended; rw [hl]; exact id)

theorem linkReport_keeps (s : State) (c : Nat) : Keeps 0 0 s (s.linkReport c) := .reportIf s _ _ _

theorem Keeps.then_setPmg {m n : Nat} {s t : State} {b : Pmg} (h : Keeps m n s t) (hb : t.pmg.held → b.held)
    (hr : b.rows = t.pmg.rows) (hs : b.stage = t.pmg.stage) (he : b.stillEmission = t.pmg.stillEmission) :
    Keeps m n s (t.setPmg b) := h.andThen (.setPmg hb hr hs he)

/-- The link comes to a state that is not DOWN from one that is not. -/
theorem setLnk_open_keeps {s : State} {b : Lnk} (hb : b.state ≠ .down) (hs : s.lnk.state ≠ .down)
    (hu : b.u0 = s.lnk.u0) (hl : b.loopback = s.lnk.loopback) : Keeps 0 0 s (s.setLnk b) :=
  setLnk_keeps ⟨fun h => absurd h hb, fun h => absurd h hs⟩ hu hl

theorem trainComplete_keeps (s : State) (w : HostWord) (hs : s.lnk.state ≠ .down) :
    Keeps 0 0 s (s.trainComplete w) := by
  have hl : Keeps 0 0 s (s.setLnk (s.lnk.train w s.tas.now s.osc)) := setLnk_open_keeps nofun hs rfl rfl
  exact .then_reportIf (.then_setSummary (hl.then_setPmg (fun h => ⟨h.1, contractOf_bounds _⟩) rfl rfl rfl))

theorem holdsLink_resets (e : InProgress) (h : e.holdsLink = true) : e.resets = false := by
  unfold InProgress.resets
  rw [of_decide_eq_true h]

theorem recoverComplete_keeps (s : State) (w : HostWord) (hs : s.lnk.state ≠ .down) :
    Keeps 0 0 s (s.recoverComplete w) := by
  refine Keeps.trans (Keeps.trans (Keeps.then_setSummary ?_) (linkReport_keeps _ _)) (.finish _ holdsLink_resets _ _)
  exact setLnk_open_keeps nofun hs rfl rfl

theorem tryComplete_keeps (s : State) : Keeps 0 0 s s.tryComplete := by
  refine .ite (fun _ => ?_) fun _ => .refl 0 s
  split
  · rename_i hs
    split
    · exact trainComplete_keeps s _ (by rw [hs]; exact nofun)
    · exact .refl 0 s
  · rename_i hs
    split
    · exact recoverComplete_keeps s _ (by rw [hs]; exact nofun)
    · exact .refl 0 s
  · exact .refl 0 s

/-- A change of the link leaves everything but the slots' rules as it was. -/
theorem Lax.setLnk (s : State) (b : Lnk) : Lax 0 0 s (s.setLnk b) := ⟨rfl, .refl _, fun h => { h with }, fun _ h => h⟩

/-- The link changed with no slot being sent before or after, where the waiting places are as they were. -/
theorem ruled_setLnk {s : State} {b : Lnk} (h : s.slotsRuled) (h0 : ∀ i f e, s.lnk.u0 ≠ .slot i f e)
    (h1 : ∀ i f e, b.u0 ≠ .slot i f e) (hd : b.state ≠ .down) : (s.setLnk b).slotsRuled := by
  refine ⟨h.1, fun i => ⟨fun hi => ?_, fun ⟨f, e, hi⟩ => absurd hi (h1 i f e)⟩, fun k => absurd k hd⟩
  obtain ⟨f, e, hi⟩ := (h.2.1 i).mp hi
  exact absurd hi (h0 i f e)

theorem filled_setLnk {s : State} {b : Lnk} (h : s.slotsFilled) (hs : b.state ≠ .down → s.lnk.state ≠ .down) :
    (s.setLnk b).slotsFilled := fun hn c hc => h (hs hn) c (by cases c <;> exact hc)

/-- While a word or an echo is on U0 or U0 is busy so, no arbitration is due. -/
theorem held_busy {s : State} (h : s.slotsRuled) (hf : s.slotsFilled) (hu : s.lnk.u0 ≠ .idle) : s.slotsHeld :=
  s.slotsHeld_iff.mpr ⟨h, hf, fun _ hi => absurd hi hu⟩

/-- During a running loopback no arbitration is due. -/
theorem held_suspended {s : State} (h : s.slotsRuled) (hf : s.slotsFilled) (hu : s.lnk.suspended = true) : s.slotsHeld :=
  s.slotsHeld_iff.mpr ⟨h, hf, fun _ _ hs => absurd hs (by rw [hu]; decide)⟩

theorem Lax.sendEcho (s : State) : Lax 0 0 s s.sendEcho := by
  unfold State.sendEcho
  split
  · exact .setLnk s _
  · exact .refl 0 s

theorem sendEcho_held {s : State} (h : s.slotsRuled) (hf : s.slotsFilled) (hu : s.lnk.u0 = .idle)
    (hn : s.lnk.state ≠ .down) (hs : s.lnk.suspended = true) : s.sendEcho.slotsHeld := by
  unfold State.sendEcho
  split
  · refine held_busy (ruled_setLnk h (by rw [hu]; exact nofun) (fun _ _ _ => nofun) hn)
      (filled_setLnk hf id) nofun
  · exact held_suspended h hf hs

theorem Lax.freeLane (s : State) : Lax 0 0 s s.freeLane := by
  unfold State.freeLane
  simp only
  split
  · exact (Lax.setLnk s _).trans (.sendEcho _)
  · split
    · exact ((Lax.setLnk s _).trans (.arbitrate _)).trans (.setLnk _ _)
    · exact (Lax.setLnk s _).trans (.arbitrate _)

theorem arbitrate_lnk (s : State) : s.arbitrate.lnk = { s.lnk with u0 := s.arbitrate.lnk.u0 } :=
  s.arbitrate_only.lnk

/-- A U0 that was sending no slot is free again. -/
theorem freeLane_held {s : State} (h : s.slotsRuled) (hf : s.slotsFilled) (hu : ∀ i f e, s.lnk.u0 ≠ .slot i f e)
    (hn : s.lnk.state ≠ .down) : s.freeLane.slotsHeld := by
  have ht : (s.setLnk { s.lnk with u0 := .idle }).slotsRuled := ruled_setLnk h hu (fun _ _ _ => nofun) hn
  have hg : (s.setLnk { s.lnk with u0 := .idle }).slotsFilled := filled_setLnk hf id
  unfold State.freeLane
  simp only
  split
  · exact sendEcho_held ht hg rfl hn ‹_›
  · have hh := State.arbitrate_held ht hg
    split
    · rename_i hi
      exact held_busy (ruled_setLnk hh.ruled (by rw [hi.1]; exact nofun) (fun _ _ _ => nofun)
        (by rw [hi.2]; exact nofun)) (filled_setLnk hh.filled id) nofun
    · exact hh

/-- In a state whose rules hold, U0 is idle in DOWN. -/
theorem State.slotsHeld.not_down {s : State} (h : s.slotsHeld) (hu : s.lnk.u0 ≠ .idle) : s.lnk.state ≠ .down :=
  fun hd => hu (h.ruled.2.2 hd).1

theorem freeLane_keeps {s : State} (hu : ∀ i f e, s.lnk.u0 ≠ .slot i f e) (hi : s.lnk.u0 ≠ .idle) :
    Keeps 0 0 s s.freeLane := by
  refine ⟨.freeLane s, fun h => ?_, fun h => freeLane_held h.ruled h.filled hu (h.not_down hi)⟩
  have : OnlyMessages (s.setLnk { s.lnk with u0 := .idle }) (s.setLnk { s.lnk with u0 := .idle }).arbitrate :=
    State.arbitrate_only _
  unfold State.freeLane
  simp only
  split
  · unfold State.sendEcho
    split <;> exact h
  · split <;> exact this.cap h

/-- A loopback that ends, with its arbitration still to be made. -/
theorem endLoopback_ruled {s : State} {b : Lnk} (h : s.slotsRuled) (hu : b.u0 = (s.lnk.endLoopback s.osc).u0)
    (hs : b.state = .down ↔ s.lnk.state = .down) : (s.setLnk b).slotsRuled := by
  by_cases hl : s.lnk.u0.justArrived s.osc = true
  · have hi : b.u0 = .idle := by rw [hu, Lnk.endLoopback]; simp [hl]
    have hn : ∀ i f e, s.lnk.u0 ≠ .slot i f e := fun i f e hu => by rw [hu] at hl; cases hl
    refine ⟨h.1, fun i => ⟨fun hi => ?_, fun ⟨f, e, k⟩ => ?_⟩, fun k => ⟨hi, (h.2.2 (hs.mp k)).2⟩⟩
    · obtain ⟨f, e, hi⟩ := (h.2.1 i).mp hi
      exact absurd hi (hn i f e)
    · rw [State.setLnk_lnk, hi] at k
      cases k
  · have hi : b.u0 = s.lnk.u0 := by rw [hu, Lnk.endLoopback]; simp [hl]
    refine ⟨h.1, fun i => ?_, fun k => ?_⟩
    · rw [State.setLnk_lnk, hi]
      exact h.2.1 i
    · rw [State.setLnk_lnk, hi]
      exact h.2.2 (hs.mp k)

/-- A loopback ends, and the arbitration is made. -/
theorem endLoopback_keeps {s : State} {b : Lnk} (hu : b.u0 = (s.lnk.endLoopback s.osc).u0)
    (hs : b.state = .down ↔ s.lnk.state = .down) : Keeps 0 0 s (s.setLnk b).arbitrate :=
  ⟨(Lax.setLnk s b).trans (.arbitrate _), fun h => (State.arbitrate_only (s.setLnk b)).cap h, fun h =>
    State.arbitrate_held (endLoopback_ruled h.ruled hu hs) (filled_setLnk h.filled fun k e => k (hs.mpr e))⟩

theorem echo_keeps (s : State) (f : List Byte) (hs : s.lnk.suspended = true) (hn : s.lnk.state ≠ .down) :
    Keeps 0 0 s (s.echo f) := by
  refine .ite (fun _ => setLnk_keeps Iff.rfl rfl rfl) fun _ => .ite (fun hc => ?_) fun _ => ?_
  · exact ⟨.setLnk s _, fun h => h, fun h => held_busy (ruled_setLnk h.ruled (by rw [hc.1]; exact nofun)
      (fun _ _ _ => nofun) hn) (filled_setLnk h.filled id) nofun⟩
  · have ht : Keeps 0 0 s (s.setLnk { s.lnk with echoQueue := s.lnk.echoQueue ++ [f] }) := setLnk_keeps Iff.rfl rfl rfl
    refine ht.trans ⟨.sendEcho _, fun h => ?_, fun h => ?_⟩
    · unfold State.sendEcho
      split <;> exact h
    · by_cases hu : s.lnk.u0 = .idle
      · exact sendEcho_held h.ruled h.filled hu hn hs
      · unfold State.sendEcho
        split
        · exact absurd ‹_› hu
        · exact h

theorem linkLoopback_keeps (ps : List Byte) (s : State) : Keeps 0 0 s (linkLoopback ps s).state := by
  unfold linkLoopback
  split
  · exact .refl 0 s
  · split
    · rename_i hl
      exact .setLnk Iff.rfl rfl fun _ => by unfold Lnk.suspended; rw [hl]
    · exact .refl 0 s
    · exact .refl 0 s

/-- Entry to TRAIN from DOWN: the ability word is on U0, and the slots are filled. -/
theorem enterTrain_keeps {s : State} (hd : s.lnk.state = .down) : Keeps 0 0 s s.enterTrain := by
  refine ⟨((Lax.setLnk s _).trans (.setLnk _ _)).trans (.fill _), fun h => (State.fill_only _).cap h, fun h => ?_⟩
  obtain ⟨hu, hem⟩ := h.ruled.2.2 hd
  have hr : ((s.setLnk { s.lnk with
      state := .train
      limit := some (s.osc + ms 100)
      heldWord := none
      sentRequest := s.lnk.ownRequest
      sentUser := s.lnk.ownUser }).sendWord).slotsRuled := by
    refine ⟨h.ruled.1, fun i => ⟨fun ⟨y, hy⟩ => ?_, fun ⟨f, e, k⟩ => (nomatch k)⟩, fun k => (nomatch k)⟩
    have := hem i
    change s.rch.slots[i] = _ at hy
    rw [this] at hy
    cases hy
  obtain ⟨hr, hf⟩ := State.fill_ruled hr
  refine held_busy hr hf fun hi => ?_
  have := congrArg Lnk.u0 (State.fill_lnk _) |>.symm.trans hi
  cases this

theorem tryTrain_keeps (s : State) : Keeps 0 0 s s.tryTrain := by
  refine .ite (fun h => enterTrain_keeps ?_) fun _ => .refl 0 s
  simp only [Lnk.mayTrain, Bool.and_eq_true, decide_eq_true_eq] at h
  exact h.1.1.1

theorem enterRecover_keeps {s : State} (t : LaneRate) (cut : Bool) (hn : s.lnk.state ≠ .down) :
    Keeps 0 0 s (s.enterRecover t cut) :=
  endLoopback_keeps (b := s.lnk.enterRecover t cut s.osc) rfl ⟨fun h => (nomatch h), fun h => absurd h hn⟩

theorem hostWord_keeps (s : State) (w : HostWord) : Keeps 0 0 s (s.hostWord w) := by
  unfold State.hostWord
  split
  · refine .ite (fun _ => Keeps.trans ?_ (tryComplete_keeps _)) fun _ => setLnk_keeps Iff.rfl rfl rfl
    exact setLnk_keeps Iff.rfl rfl rfl
  · refine Keeps.trans ?_ (tryComplete_keeps _)
    exact setLnk_keeps Iff.rfl rfl rfl
  · exact .refl 0 s

/-- The cap hangs on the panels, the Sampler and the Power Manager alone. -/
theorem State.capHeld_of_same {s t : State} (hc : t.sco = s.sco) (hm : t.smp = s.smp) (hp : t.pmg = s.pmg)
    (h : s.capHeld) : t.capHeld := by
  unfold State.capHeld State.emissionCap State.presenceCap
  rw [hc, hm, hp]
  exact h

/-- What DOWN empties, before its summary bits are set. -/
def State.emptied (s : State) : State :=
  ((((s.setLnk (s.lnk.enterDown s.osc)).setFri (s.fri.mapEyes Eye.linkDown)).setRch
    s.rch.flush).setMge s.mge.empty).setAud s.aud.linkDown

theorem State.enterDown_eq (s : State) : s.enterDown = s.emptied.setSummary s.downBits := rfl

/-- Four EMPTY slots hold nothing of any class, and no reply. -/
theorem Rch.holding_empty {r : Rch} (h : r.slots = Vector.replicate 4 .empty) (c : ItemClass) : r.holding c = 0 := by
  unfold Rch.holding
  rw [h]
  simp [Vector.toList_replicate, TxSlot.item]

theorem State.outgoing_empty {s : State} (h : s.rch.slots = Vector.replicate 4 .empty) :
    s.outgoing = s.mge.replies := by
  unfold State.outgoing
  rw [h]
  rfl

theorem emptied_slots (s : State) : s.emptied.rch.slots = Vector.replicate 4 .empty := rfl

theorem emptied_account (s : State) : s.emptied.admissionHeld := by
  unfold State.admissionHeld
  rw [State.outgoing_empty (emptied_slots s)]
  exact ⟨rfl, Nat.zero_le _⟩

/-- With every slot EMPTY in DOWN, and U0 off, the slots' rules hold. -/
theorem held_down {s : State} (hr : s.rch.slots = Vector.replicate 4 .empty) (hu : s.lnk.u0 = .idle)
    (hd : s.lnk.state = .down) : s.slotsHeld := by
  have hs : ∀ i : Fin 4, s.rch.slots[i] = .empty := fun i => by rw [hr]; simp
  refine ⟨fun c => (Rch.holding_empty hr c).le.trans (Nat.zero_le _), fun i => ⟨fun ⟨_, h⟩ => ?_, fun ⟨_, _, h⟩ => ?_⟩,
    fun _ => ⟨hu, hs⟩, fun h => absurd hd h⟩
  · rw [hs] at h
    cases h
  · rw [hu] at h
    cases h

theorem State.Uncapped.flush {s : State} (h : s.Uncapped) : (s.setRch s.rch.flush).Uncapped := { h with }

theorem State.Uncapped.empty {s : State} (h : s.Uncapped) : (s.setMge s.mge.empty).Uncapped :=
  { h with queues := ⟨Nat.zero_le _, h.queues.2⟩ }

theorem linkDown_keeps (s : State) : Keeps 0 0 s (s.setAud s.aud.linkDown) :=
  .setAud (fun h g => ⟨h, g⟩) (fun _ => Nat.zero_le _) (fun _ => rfl) id

theorem tearFrames_keeps (s : State) : Keeps 0 0 s (s.setFri (s.fri.mapEyes Eye.linkDown)) :=
  .setFri fun p => Fri.mapEyes_ok (fun _ => Eye.linkDown_ok) p

theorem emptied_bounds (s : State) (h : s.Uncapped) : s.emptied.Uncapped :=
  (linkDown_keeps _).bounds
    ((tearFrames_keeps (s.setLnk (s.lnk.enterDown s.osc))).bounds ((Lax.setLnk s _).bounds h)).flush.empty

theorem emptied_kept (s : State) : Kept s s.emptied where
  pending := rfl
  store := .refl _
  bounds := emptied_bounds s
  account _ := emptied_account s
  cap := State.capHeld_of_same rfl rfl rfl
  slots _ := held_down (emptied_slots s) rfl rfl

theorem enterDown_kept (s : State) : Kept s s.enterDown :=
  (emptied_kept s).trans (Keeps.setSummary _ _).kept

end Sys2Proof.Machine
end

section
/-! What every step keeps, continued: the link's quality, its requests, the channels, the store, the Message
Engine, reception; and then every command. -/

namespace Sys2Proof.Machine

/-! ## The Tether Link: markers, quality, requests -/

theorem setLinkQuality_keeps (ps : List Byte) (s : State) : Keeps 0 0 s (setLinkQuality ps s).state := by
  unfold setLinkQuality
  split
  · exact .refl 0 s
  · split
    · simp only
      unfold Lnk.setQuality
      split <;> exact setLnk_keeps Iff.rfl rfl rfl
    · exact .refl 0 s

theorem takeFrees_keeps (n : Nat) (s : State) : Keeps 0 0 s (s.takeFrees n).2 := by
  induction n generalizing s with
  | zero => exact .refl 0 s
  | succ n ih => exact (takeFree_keeps s).trans (ih _)

theorem takeFrees_lnk (n : Nat) (s : State) : (s.takeFrees n).2.lnk = s.lnk := by
  induction n generalizing s with
  | zero => rfl
  | succ n ih => exact ih s.takeFree.2

theorem readLinkStatus_keeps (ps : List Byte) (s : State) : Keeps 0 0 s (readLinkStatus ps s).state := by
  unfold readLinkStatus State.partnerFields
  split
  · exact .refl 0 s
  · split
    · exact setLnk_keeps Iff.rfl rfl rfl
    · have hl := takeFrees_lnk 6 s
      exact (takeFrees_keeps 6 s).andThen (setLnk_keeps (by rw [hl]; rfl) (by rw [hl]; rfl) (by rw [hl]; rfl))

theorem readLinkCounters_keeps (ps : List Byte) (s : State) : Keeps 0 0 s (readLinkCounters ps s).state := by
  unfold readLinkCounters
  split
  · exact .refl 0 s
  · exact .ite (fun _ => setLnk_keeps Iff.rfl rfl rfl) fun _ => .refl 0 s

theorem mayRetrain_up {l : Lnk} (h : l.mayRetrain = true) : l.state ≠ .down := by
  intro hd
  simp [Lnk.mayRetrain, hd] at h

theorem linkRetrain_keeps (cut : Bool) (ps : List Byte) (s : State) : (linkRetrain cut ps s).Kept s := by
  unfold linkRetrain
  split
  · exact Keeps.refl 0 s
  · split
    · exact Keeps.refl 0 s
    · rename_i r hr
      split
      · rename_i hm
        have hp : Keeps 0 0 s (s.setLnk { s.lnk with preferred := r }) := setLnk_keeps Iff.rfl rfl rfl
        exact ⟨nofun, hp.andThen (enterRecover_keeps r cut (mayRetrain_up hm))⟩
      · exact Keeps.refl 0 s

theorem judgeWindow_keeps (s : State) (e : Energies) (cut : Bool) (ends : Nat) (hu : s.lnk.state = .up) :
    Keeps 0 0 s (s.judgeWindow e cut ends) := by
  unfold State.judgeWindow
  simp only
  have ht : Keeps 0 0 s (s.setLnk (s.lnk.windowEnds e ends)) := setLnk_keeps Iff.rfl rfl rfl
  have hb : ∀ t : State, t.lnk.state = .up → ∀ b, (t.setSummary b).lnk.state = .up := fun t h b => by
    rw [(State.setSummary_only t b).lnk]
    exact h
  generalize hv : (if 4 ≤ s.lnk.crcTally then _ else _) = v
  have hk : Keeps 0 0 s v := hv ▸ .ite (fun _ => ht.then_setSummary) fun _ => ht
  have hl : v.lnk.state = .up := by
    rw [← hv]
    split
    · exact hb (s.setLnk (s.lnk.windowEnds e ends)) hu _
    · exact hu
  exact .ite (fun _ => hk.andThen (enterRecover_keeps _ _ (by rw [hl]; exact nofun))) fun _ => hk

theorem protocolError_keeps (s : State) : Keeps 0 0 s s.protocolError := setLnk_keeps Iff.rfl rfl rfl

theorem setLock_keeps (s : State) (lane : Lane) (b : Bool) : Keeps 0 0 s (s.setLock lane b) :=
  setLnk_keeps Iff.rfl rfl rfl

theorem quietMarker_keeps (cut : Bool) (s : State) : Completes s (execQuietMarker cut s) := by
  refine .live s (.ite (fun hu => .ite (fun _ => ?_) fun _ => protocolError_keeps s) fun _ => .refl 0 s)
  exact endLoopback_keeps rfl ⟨fun h => (nomatch h), fun h => by rw [hu] at h; cases h⟩

theorem wakeMarker_keeps (s : State) : Completes s (execWakeMarker s) := by
  refine .live s ?_
  split
  · rename_i hq
    exact setLnk_open_keeps nofun (by rw [hq]; exact nofun) rfl rfl
  · exact protocolError_keeps s
  · exact .refl 0 s

theorem loopbackTimerExpiry_keeps (s : State) : Completes s (execLoopbackTimerExpiry s) := by
  refine .live s ?_
  split
  · exact (Keeps.advanceTo s _).andThen (endLoopback_keeps rfl Iff.rfl)
  · exact .refl 0 s

theorem echoTransmissionComplete_keeps (s : State) : Completes s (execEchoTransmissionComplete s) := by
  refine .live s ?_
  split
  · rename_i f a ends hu
    have hc := (Keeps.advanceTo s ends).andThen (setLnk_keeps (b := { (s.advanceTo ends).lnk with
      counters := { (s.advanceTo ends).lnk.counters with
        sent := satInc (s.advanceTo ends).lnk.counters.sent
        echoed := satInc (s.advanceTo ends).lnk.counters.echoed } }) Iff.rfl rfl rfl)
    exact hc.andThen (freeLane_keeps (by intro i f e; exact hu ▸ nofun) (by exact hu ▸ nofun))
  · exact .refl 0 s

theorem abilityWordEnd_keeps (s : State) : Completes s (execAbilityWordEnd s) := by
  refine .live s ?_
  split
  · rename_i w ends hu
    exact (Keeps.advanceTo s ends).andThen
      (freeLane_keeps (by intro i f e; exact hu ▸ nofun) (by exact hu ▸ nofun))
  · exact .refl 0 s

theorem laneLockLoss_keeps (lane : Lane) (cut : Bool) (s : State) : Completes s (execLaneLockLoss lane cut s) := by
  refine .live s (.ite (fun h => ?_) fun _ => setLock_keeps s lane false)
  refine (setLock_keeps s lane false).andThen (enterRecover_keeps _ _ ?_)
  intro hd
  change s.lnk.state = .down at hd
  rcases h.1 with hu | hu <;> rw [hd] at hu <;> cases hu

theorem laneWordLock_keeps (lane : Lane) (s : State) : Completes s (execLaneWordLock lane s) :=
  .live s (.ite (fun _ => .refl 0 s) fun _ => (setLock_keeps s lane true).andThen (tryComplete_keeps _))

theorem hostAbilityWord_keeps (w : HostWord) (s : State) : Completes s (execHostAbilityWord w s) :=
  .live s (.ite (fun _ => hostWord_keeps s w) fun _ => .refl 0 s)

theorem qualityWindowEnd_keeps (e : Energies) (cut : Bool) (s : State) :
    Completes s (execQualityWindowEnd e cut s) := by
  refine .live s ?_
  split
  · rename_i hu _
    exact (Keeps.advanceTo s _).andThen (judgeWindow_keeps _ _ _ _ hu)
  · exact .refl 0 s

theorem trainingLimitExpiry_keeps (s : State) : Completes s (execTrainingLimitExpiry s) := by
  refine .live' s ?_
  split
  · exact (Keeps.advanceTo s _).kept.trans (enterDown_kept _)
  · exact (Keeps.refl 0 s).kept

theorem recoveryLimitExpiry_keeps (s : State) : Completes s (execRecoveryLimitExpiry s) := by
  refine .live' s ?_
  split
  · exact (Keeps.advanceTo s _).kept.trans (enterDown_kept _)
  · exact (Keeps.refl 0 s).kept

theorem backoffEnd_keeps (s : State) : Completes s (execBackoffEnd s) := by
  refine .live s ?_
  split
  · exact .refl 0 s
  · refine Keeps.andThen (t := (s.advanceTo _).setLnk { (s.advanceTo _).lnk with backoff := none }) ?_
      (tryTrain_keeps _)
    exact (Keeps.advanceTo s _).andThen (setLnk_keeps Iff.rfl rfl rfl)

theorem d0SignalDetect_keeps (s : State) : Completes s (execD0SignalDetect s) := by
  have hd : Keeps 0 0 s (s.setLnk { s.lnk with d0Signal := true }) := setLnk_keeps Iff.rfl rfl rfl
  refine ⟨_, rfl, ?_⟩
  split
  · exact (hd.andThen (tryTrain_keeps _)).kept
  · exact hd.kept

theorem d0SignalLoss_keeps (s : State) : Completes s (execD0SignalLoss s) :=
  .next (setLnk_keeps Iff.rfl rfl rfl)

/-! ## The Channel Filter and the Return Channel -/

theorem setChannelFilter_keeps (ps : List Byte) (s : State) : Keeps 0 0 s (setChannelFilter ps s).state := by
  unfold setChannelFilter
  split
  · exact .refl 0 s
  · split
    · split
      · exact .refl 0 s
      · simp only
        split
        · exact .setCfl s _
        · exact .refl 0 s
    · exact .refl 0 s

theorem readChannelFilter_keeps (ps : List Byte) (s : State) : Keeps 0 0 s (readChannelFilter ps s).state := by
  unfold readChannelFilter
  split
  · exact .refl 0 s
  · exact .ite (fun _ => .setCfl s _) fun _ => .refl 0 s

theorem setReturnPriority_keeps (ps : List Byte) (s : State) : Keeps 0 0 s (setReturnPriority ps s).state := by
  unfold setReturnPriority
  split
  · exact .refl 0 s
  · split
    · exact .refl 0 s
    · exact .setRch rfl rfl

theorem readReturnStatus_keeps (ps : List Byte) (s : State) : Keeps 0 0 s (readReturnStatus ps s).state := by
  unfold readReturnStatus
  split
  · exact .refl 0 s
  · exact .ite (fun _ => .setRch rfl rfl) fun _ => .refl 0 s

/-! ## The Calibration Store -/

theorem refuseStore_keeps (s : State) (st : Status) : Keeps 0 0 s (s.refuseStore st).state :=
  .then_setSummary (.setCst_same rfl rfl rfl)

/-- An operation begins, the array and the boundary as they were. -/
theorem setOp_keeps {s : State} {o : StoreOp} (h : ({ s.cst with op := o } : Cst).opHeld) :
    Keeps 0 0 s (s.setCst { s.cst with op := o }) :=
  .setCst (fun _ => ⟨h, Nat.le_refl _, fun _ _ => rfl⟩) fun h _ => h

theorem erasePage_keeps (ps : List Byte) (s : State) : (erasePage ps s).Kept s := by
  unfold erasePage
  split
  · exact refuseStore_keeps s _
  · split
    · exact refuseStore_keeps s _
    · split
      · exact refuseStore_keeps s _
      · split
        · exact refuseStore_keeps s _
        · refine ⟨nofun, setOp_keeps (show s.cst.boundary ≤ field ps 0 1 ∧ field ps 0 1 < 8 from ?_)⟩
          omega

theorem programStore_keeps (ps : List Byte) (s : State) : (programStore ps s).Kept s := by
  unfold programStore
  simp only
  split
  · exact refuseStore_keeps s _
  · rename_i hl
    split
    · exact refuseStore_keeps s _
    · rename_i hr
      split
      · exact refuseStore_keeps s _
      · split
        · exact refuseStore_keeps s _
        · rename_i hb
          split
          · refine ⟨nofun, setOp_keeps (show s.cst.boundary ≤ field ps 0 1 ∧ field ps 0 1 < 8 ∧
              1 ≤ (ps.drop 4).length ∧ (ps.drop 4).length ≤ 64 ∧ field ps 1 2 + (ps.drop 4).length ≤ 1024 from ?_)⟩
            rw [List.length_drop]
            unfold pageSize at hr
            omega
          · exact refuseStore_keeps s _

theorem holdsStore_resets (e : InProgress) (h : e.holdsStore = true) : e.resets = false := by
  unfold InProgress.resets
  rw [of_decide_eq_true h]

theorem nextOp_held (c d : Cst) (osc : Nat) (b : Bool) : ({ c with op := d.nextOp osc, loadOwed := b } : Cst).opHeld := by
  cases h : d.loadOwed <;> simp [Cst.opHeld, Cst.nextOp, h]

/-- An erase or program ends: bytes of unprotected pages alone have changed. -/
theorem endOp_keeps {s : State} {c : Cst} (f : List Byte) (hb : s.cst.boundary = c.boundary)
    (ha : s.cst.opHeld → ∀ a, a / 1024 < s.cst.boundary → storeRead c.array a = storeRead s.cst.array a)
    (hw : storeWf s.cst.array = true → s.cst.opHeld → storeWf c.array = true) : Keeps 0 0 s (s.endOp c f) :=
  (Keeps.then_setSummary (.setCst (fun h => ⟨nextOp_held c c _ _, hb.le, ha h⟩) hw)).andThen
    (.finish _ holdsStore_resets _ _)

theorem eraseEnd_keeps (s : State) : Completes s (execEraseEnd s) := by
  refine .live s ?_
  split
  · rename_i page ends ho
    refine (Keeps.advanceTo s ends).andThen (endOp_keeps _ rfl (fun h a ha => ?_) fun h _ => storeWf_erase page h)
    change Cst.opHeld s.cst at h
    rw [Cst.opHeld, ho] at h
    refine (storeRead_erase _ _ _).trans (if_neg ?_)
    change a / 1024 < s.cst.boundary at ha
    change a / 1024 ≠ page
    omega
  · exact .refl 0 s

theorem programEnd_keeps (s : State) : Completes s (execProgramEnd s) := by
  refine .live s ?_
  split
  · rename_i page offset data ends ho
    have hp : (s.advanceTo ends).cst.opHeld → s.cst.boundary ≤ page ∧ page < 8 ∧ 1 ≤ data.length ∧
        data.length ≤ 64 ∧ offset + data.length ≤ 1024 := fun h => by
      change Cst.opHeld s.cst at h
      rwa [Cst.opHeld, ho] at h
    refine (Keeps.advanceTo s ends).andThen (endOp_keeps _ rfl (fun h a ha => ?_) fun h k => ?_)
    · obtain ⟨hb, -, -, -, -⟩ := hp h
      change a / 1024 < s.cst.boundary at ha
      refine storeRead_storeWriteAll_other _ _ _ _ (.inl ?_)
      change a < page * 1024 + offset
      omega
    · obtain ⟨-, h8, -, -, hd⟩ := hp k
      refine storeWf_writeAll _ _ ?_ h
      unfold pageSize
      omega
  · exact .refl 0 s

theorem readStore_keeps (ps : List Byte) (s : State) : Keeps 0 0 s (readStore ps s).state := by
  unfold readStore
  simp only
  split
  · exact refuseStore_keeps s _
  · split
    · exact refuseStore_keeps s _
    · split
      · exact refuseStore_keeps s _
      · exact .refl 0 s

theorem blankCheck_keeps (ps : List Byte) (s : State) : Keeps 0 0 s (blankCheck ps s).state := by
  unfold blankCheck
  split
  · exact refuseStore_keeps s _
  · split
    · exact refuseStore_keeps s _
    · split
      · exact refuseStore_keeps s _
      · exact .refl 0 s

theorem setProtectBoundary_keeps (ps : List Byte) (s : State) : Keeps 0 0 s (setProtectBoundary ps s).state := by
  unfold setProtectBoundary
  split
  · exact refuseStore_keeps s _
  · split
    · exact refuseStore_keeps s _
    · split
      · exact refuseStore_keeps s _
      · rename_i ho
        split
        · exact refuseStore_keeps s _
        · refine .setCst (fun _ => ⟨?_, by change s.cst.boundary ≤ field ps 0 1; omega, fun _ _ => rfl⟩) fun h _ => h
          unfold Cst.opHeld
          simp only [not_not.mp ho]

theorem readStoreMap_keeps (ps : List Byte) (s : State) : Keeps 0 0 s (readStoreMap ps s).state := by
  unfold readStoreMap
  split
  · exact refuseStore_keeps s _
  · exact .ite (fun _ => .setCst_same rfl rfl rfl) fun _ => .refl 0 s

/-! ### A write that is cut -/

/-- Free values drawn and the store's array changed, nothing else. -/
def State.rewritten (s t : State) : Prop := ∃ k m, t = (s.setFree k).setCst { s.cst with array := m }

theorem State.rewritten.refl (s : State) : s.rewritten s := ⟨s.freeIndex, s.cst.array, rfl⟩

theorem State.rewritten.trans {s t u : State} (h : s.rewritten t) (g : t.rewritten u) : s.rewritten u := by
  obtain ⟨k, m, rfl⟩ := h
  obtain ⟨k', m', rfl⟩ := g
  exact ⟨k', m', rfl⟩

theorem State.scramble_rewritten : ∀ (n a : Nat) (s : State), s.rewritten (s.scramble a n)
  | 0, _, s => .refl s
  | n + 1, a, s => .trans ⟨s.takeFree.2.freeIndex, storeWrite s.cst.array a s.takeFree.1, rfl⟩
    (State.scramble_rewritten n (a + 1) (s.takeFree.2.setCst
      { s.cst with array := storeWrite s.cst.array a s.takeFree.1 }))

theorem State.alter_rewritten (s : State) (a : Nat) : s.rewritten (s.alter a) := ⟨_, _, rfl⟩

theorem State.cutWrite_rewritten (s : State) (page a n : Nat) : s.rewritten (s.cutWrite page a n) := by
  unfold State.cutWrite
  simp only
  split
  · exact (State.scramble_rewritten n a s).trans (State.alter_rewritten _ a)
  · exact State.scramble_rewritten n a s

theorem State.cutWrite_other {n a c : Nat} (s : State) (page : Nat) (hn : 1 ≤ n) (h : c < a ∨ a + n ≤ c) :
    storeRead (s.cutWrite page a n).cst.array c = storeRead s.cst.array c := by
  have hs := State.scramble_other n a c s h
  unfold State.cutWrite
  simp only
  split
  · exact (storeRead_storeWrite_other _ _ _ _ (by omega)).trans hs
  · exact hs

theorem State.cutWrite_wf {n a : Nat} {s : State} (page : Nat) (hn : 1 ≤ n) (ha : a + n ≤ 8 * pageSize)
    (h : storeWf s.cst.array = true) : storeWf (s.cutWrite page a n).cst.array = true := by
  have hs := State.scramble_wf n a ha h
  unfold State.cutWrite
  simp only
  split
  · exact storeWf_write _ _ (by omega) hs
  · exact hs

theorem State.cutOp_rewritten (s : State) : s.rewritten s.cutOp := by
  unfold State.cutOp
  split
  · exact s.cutWrite_rewritten _ _ _
  · exact s.cutWrite_rewritten _ _ _
  · exact .refl s

/-- A cut write of an unprotected page keeps what the store keeps. -/
theorem cutWrite_keeps {s : State} {page a n : Nat} (h : s.cst.opHeld → s.cst.boundary * 1024 ≤ a ∧ 1 ≤ n ∧ a + n ≤ 8 * 1024) :
    Keeps 0 0 s (s.cutWrite page a n) := by
  have hr := s.cutWrite_rewritten page a n
  have ho := fun c hn => State.cutWrite_other (n := n) (a := a) (c := c) s page hn
  have hw := fun hn ha => State.cutWrite_wf (n := n) (a := a) (s := s) page hn ha
  obtain ⟨k, m, he⟩ := hr
  rw [he] at ho hw ⊢
  refine (Keeps.setFree s k).andThen (.setCst (fun hs => ⟨hs, Nat.le_refl _, fun c hc => ?_⟩) fun hs hp => ?_)
  · obtain ⟨ha, hn, -⟩ := h hs
    change c / 1024 < s.cst.boundary at hc
    exact ho c hn (.inl (by omega))
  · obtain ⟨-, hn, ha⟩ := h hp
    exact hw hn ha hs

theorem cutOp_keeps (s : State) : Keeps 0 0 s s.cutOp := by
  unfold State.cutOp
  split
  · rename_i page ends ho
    refine cutWrite_keeps fun h => ?_
    rw [Cst.opHeld, ho] at h
    unfold pageSize
    omega
  · rename_i page offset data ends ho
    refine cutWrite_keeps fun h => ?_
    rw [Cst.opHeld, ho] at h
    unfold pageSize
    omega
  · exact .refl 0 s

/-- The power switched leaves everything else as it was. -/
theorem setPowered_keeps (s : State) (b : Bool) : Keeps 0 0 s { s with powered := b } :=
  ⟨⟨rfl, .refl _, fun h => { h with }, fun _ h => h⟩, fun h => h, fun h => h⟩

theorem tetherPowerLoss_keeps (s : State) : Completes s (execTetherPowerLoss s) :=
  .live s ((cutOp_keeps s).andThen (setPowered_keeps _ _))

end Sys2Proof.Machine
end

section
/-! What every step keeps, concluded: the clears, the resets, the completion of a transmission, reception, the
end of a load, power-on; and then every command and every step. -/

namespace Sys2Proof.Machine

/-! ## The Message Engine's requests and the clears -/

theorem identify_keeps (ps : List Byte) (s : State) : Keeps 0 0 s (identify ps s).state := by
  unfold identify
  split <;> exact .refl 0 s

theorem readSummary_keeps (ps : List Byte) (s : State) : Keeps 0 0 s (readSummary ps s).state := by
  unfold readSummary
  split
  · exact .refl 0 s
  · simp only
    split <;> exact .setMge rfl rfl rfl rfl rfl

theorem setAttentionEnable_keeps (ps : List Byte) (s : State) : Keeps 0 0 s (setAttentionEnable ps s).state := by
  unfold setAttentionEnable
  split
  · exact .refl 0 s
  · exact .setMge rfl rfl rfl rfl rfl

theorem setReportEnable_keeps (ps : List Byte) (s : State) : Keeps 0 0 s (setReportEnable ps s).state := by
  unfold setReportEnable
  split
  · exact .refl 0 s
  · exact .setMge rfl rfl rfl rfl rfl

theorem requestUnknownKind_keeps (kind tag : Byte) (ps : List Byte) (s : State) :
    Completes s (execRequestUnknownKind kind tag ps s) := by
  unfold execRequestUnknownKind
  split
  · exact .next (.refl 0 s)
  · exact .immediate s _ _ _ fun t => .refl 0 t

theorem Eye.clearPicture_ok {e : Eye} (h : e.slotsOk) : e.clearPicture.slotsOk := Eye.freeStates_ok h _

theorem clearPicture_keeps (s : State) : Keeps 0 0 s s.clearPicture :=
  .setFri fun p => Fri.mapEyes_ok (fun _ => Eye.clearPicture_ok) p

theorem clearAudio_keeps (s : State) : Keeps 0 0 s s.clearAudio :=
  .setAud (fun _ _ => ⟨Nat.zero_le _, .nil⟩) (fun _ => Nat.zero_le _) (fun _ => rfl) id

/-- The Sample Ring and the Pose History are emptied together. -/
theorem clearMotion_keeps (s : State) : Keeps 0 0 s s.clearMotion :=
  ⟨⟨rfl, .refl _, fun h => { h with rings := ⟨Nat.zero_le _, Nat.zero_le _, rfl⟩ }, fun _ h => h⟩,
    fun h => h, fun h => h⟩

theorem clearActions_keeps (s : State) : Keeps 0 0 s s.clearActions :=
  .setTas fun _ _ => ⟨⟨Nat.zero_le _, .nil⟩, .nil⟩

theorem clearCounters_eq (s : State) : s.clearCounters =
    (((((((((((s.setTas s.tas.clearCounters).setSmp s.smp.clearCounters).setOri s.ori.clearCounters).setFri
      (s.fri.mapEyes Eye.clearCounters)).setSco s.sco.clearCounters).setAud s.aud.clearCounters).setPmg
      s.pmg.clearCounters).setLnk s.lnk.clearCounters).setCfl s.cfl.clearCounters).setRch
      s.rch.clearCounters).setMge s.mge.clearCounters).setCst s.cst.clearCounters := by
  simp only [State.clearCounters, State.setTas, State.setSmp, State.setOri, State.setFri, State.setSco, State.setAud,
    State.setPmg, State.setLnk, State.setCfl, State.setRch, State.setMge, State.setCst]

theorem clearCounters_keeps (s : State) : Keeps 0 0 s s.clearCounters := by
  rw [clearCounters_eq]
  refine Keeps.andThen ?_ (.setCst_same rfl rfl rfl)
  refine Keeps.andThen ?_ (.setMge rfl rfl rfl rfl rfl)
  refine Keeps.andThen ?_ (.setRch rfl rfl)
  refine Keeps.andThen ?_ (.setCfl _ _)
  refine Keeps.andThen ?_ (setLnk_keeps Iff.rfl rfl rfl)
  refine Keeps.andThen ?_ (.setPmg id rfl rfl rfl)
  refine Keeps.andThen ?_ (.setAud_same rfl rfl rfl)
  refine Keeps.andThen ?_ (.setSco (.inl (Nat.le_refl _)) (.inl (Nat.le_refl _)))
  refine Keeps.andThen ?_ (.setFri fun p => Fri.mapEyes_ok (g := Eye.clearCounters) (fun _ => id) p)
  refine Keeps.andThen ?_ (.setOri rfl)
  exact Keeps.andThen (.setTas (b := s.tas.clearCounters) fun h k => ⟨h, k⟩)
    (.setSmp (b := s.smp.clearCounters) rfl rfl)

theorem clearRow_keeps (s : State) (own : Nat) {effect : State → State} (tag : Byte) (ps : List Byte)
    (h : ∀ t, Keeps 0 0 t (effect t)) : Completes s (s.clearRow own effect tag ps) := by
  unfold State.clearRow
  split
  · exact .next (.refl 0 s)
  · refine .immediate s _ _ _ fun t => ?_
    unfold functionClear
    split
    · exact .refl 0 t
    · split
      · exact .refl 0 t
      · exact h t

/-! ## Hub Reset -/

theorem hubReset_keeps (tag : Byte) (ps : List Byte) (s : State) : Completes s (execHubReset tag ps s) := by
  unfold execHubReset State.long
  refine .live s (.dispatch s _ fun t => ?_)
  unfold hubReset
  split
  · exact .formReply _ _ _ _ _
  · split
    · exact .formReply _ _ _ _ _
    · exact (Keeps.formReply t _ _ _ _).trans (.join rfl)

/-- Hub Reset at the store begins no erase or program. -/
theorem Cst.hubReset_protects (c : Cst) (osc : Nat) : c.Protects (c.hubReset osc) := by
  unfold Cst.hubReset
  split
  · rename_i h
    exact fun k => ⟨by unfold Cst.opHeld at k ⊢; exact k, Nat.le_refl _, fun _ _ => rfl⟩
  · rename_i h
    exact fun k => ⟨by unfold Cst.opHeld at k ⊢; exact k, Nat.le_refl _, fun _ _ => rfl⟩
  · exact fun _ => ⟨trivial, Nat.le_refl _, fun _ _ => rfl⟩

theorem Cst.hubReset_array (c : Cst) (osc : Nat) : (c.hubReset osc).array = c.array := by
  unfold Cst.hubReset
  split <;> rfl

theorem Lnk.hubReset_state (l : Lnk) : l.hubReset.state = l.state ∧ l.hubReset.u0 = l.u0 := by
  unfold Lnk.hubReset
  split <;> exact ⟨rfl, rfl⟩

theorem hubResetEffect_bounds (s : State) (h : s.Uncapped) : s.hubResetEffect.Uncapped where
  queues := ⟨Nat.zero_le _, Nat.zero_le _, Nat.zero_le _, .nil⟩
  table := ⟨Nat.zero_le _, .nil⟩
  order := .nil
  rings := ⟨Nat.zero_le _, Nat.zero_le _, rfl⟩
  eyes := fun p => Fri.mapEyes_ok (fun _ => Eye.hubReset_ok) p (h.eyes p)
  power := ⟨rfl, h.power.2⟩
  rows := h.rows
  level := show (24 : Nat) ≤ 255 by decide
  store := (congrArg storeWf (s.cst.hubReset_array s.osc)).trans h.store
  op := (s.cst.hubReset_protects s.osc h.op).1

/-- With every slot EMPTY, nothing waiting and U0 free, an arbitration finds nothing. -/
theorem hubResetEffect_slots {s : State} (hu : s.lnk.u0 = .idle) :
    s.hubResetEffect.slotsRuled ∧ s.hubResetEffect.slotsFilled := by
  have hr : s.hubResetEffect.rch.slots = Vector.replicate 4 .empty := rfl
  have hs : ∀ i : Fin 4, s.hubResetEffect.rch.slots[i] = .empty := fun i => by rw [hr]; simp
  have hi : s.hubResetEffect.lnk.u0 = .idle := (Lnk.hubReset_state s.lnk).2.trans hu
  refine ⟨⟨fun c => (Rch.holding_empty hr c).le.trans (Nat.zero_le _), fun i => ⟨fun ⟨_, h⟩ => ?_, fun ⟨_, _, h⟩ => ?_⟩,
    fun _ => ⟨hi, hs⟩⟩, fun _ c hc => absurd (by cases c <;> rfl) hc⟩
  · rw [hs] at h
    cases h
  · rw [hi] at h
    cases h

theorem hubResetEffect_account (s : State) : s.hubResetEffect.admissionHeld := ⟨rfl, Nat.zero_le _⟩

/-! ## The completion of a transmission -/

/-- The slot that U0 was sending is EMPTY, and its source is told. -/
def State.emptiedSlot (s : State) (i : Fin 4) (item : Item) : State := (s.clearSlot i item).told item

theorem told_same (s : State) (y : Item) : (s.told y).rch = s.rch ∧ (s.told y).aud = s.aud ∧
    (s.told y).mge.replies = s.mge.replies ∧ (s.told y).mge.reports = s.mge.reports ∧
    (s.told y).lnk.state = s.lnk.state ∧ (s.told y).lnk.u0 = s.lnk.u0 := by
  have hl : ∀ (l : Lnk) n o, (l.startLoopback n o).state = l.state ∧ (l.startLoopback n o).u0 = l.u0 := by
    intro l n o
    unfold Lnk.startLoopback
    split
    · split <;> exact ⟨rfl, rfl⟩
    · exact ⟨rfl, rfl⟩
  cases y with
  | reply r =>
    obtain ⟨hs, hu⟩ := hl s.lnk r.serial s.osc
    exact ⟨rfl, rfl, rfl, rfl, hs, hu⟩
  | _ => exact ⟨rfl, rfl, rfl, rfl, rfl, rfl⟩

theorem emptiedSlot_lax {s : State} {i : Fin 4} {y : Item} (h : s.rch.slots[i] = .transmitting y) :
    Lax 0 0 s (s.emptiedSlot i y) := by
  have hc := countP_set (fun t => t.reply?.isSome) s.rch.slots i .empty
  have h0 : TxSlot.empty.reply?.isSome = false := rfl
  simp only [h, h0, Bool.false_eq_true, if_false] at hc
  cases y with
  | reply r =>
    have h1 : (TxSlot.transmitting (.reply r)).reply?.isSome = true := rfl
    rw [h1, if_pos rfl] at hc
    refine ⟨rfl, .refl _, fun h => { h with }, fun d hd => ?_⟩
    unfold State.owes at hd ⊢
    rw [State.outgoing_length] at hd ⊢
    simp only [State.emptiedSlot, State.told, State.clearSlot, State.setMge_mge, State.setMge_rch, State.setLnk_mge,
      State.setLnk_rch, State.setRch_mge, State.setRch_rch]
    omega
  | _ =>
    refine ⟨rfl, .refl _, fun h => { h with }, fun d hd => ?_⟩
    change _ + 0 = _ + 0 at hc
    unfold State.owes at hd ⊢
    rw [State.outgoing_length] at hd ⊢
    simp only [State.emptiedSlot, State.told, State.clearSlot, State.setLnk_mge, State.setLnk_rch, State.setRch_mge,
      State.setRch_rch]
    omega

theorem emptiedSlot_ruled {s : State} {i : Fin 4} {y : Item} {f : List Byte} {e : Nat} (hs : s.slotsHeld)
    (hu : s.lnk.u0 = .slot i f e) : (s.emptiedSlot i y).slotsRuled ∧ (s.emptiedSlot i y).lnk.u0 = .idle ∧
      (s.emptiedSlot i y).lnk.state ≠ .down := by
  obtain ⟨hr, -, -, -, ht, hi⟩ := told_same (s.clearSlot i y) y
  have hn : (s.emptiedSlot i y).lnk.state ≠ .down := by
    rw [State.emptiedSlot, ht]
    exact hs.not_down (by rw [hu]; exact nofun)
  have hidle : (s.emptiedSlot i y).lnk.u0 = .idle := hi
  have hslot : ∀ j, (s.emptiedSlot i y).rch.slots[j] = if i = j then .empty else s.rch.slots[j] := fun j => by
    rw [State.emptiedSlot, hr]
    exact getSlot_set _ _ _ _
  obtain ⟨hl, htr, -⟩ := hs.ruled
  refine ⟨⟨fun c => ?_, fun j => ⟨fun ⟨x, hx⟩ => ?_, fun ⟨f', e', hx⟩ => ?_⟩, fun hd => absurd hd hn⟩, hidle, hn⟩
  · have := Rch.holding_set (r := s.rch) (q := (s.emptiedSlot i y).rch) (i := i) (x := .empty)
      (by rw [State.emptiedSlot, hr]; rfl) c
    have hlc := hl c
    simp only [TxSlot.item, Option.map_none, reduceCtorEq, if_false] at this
    omega
  · rw [hslot] at hx
    split at hx
    · cases hx
    · obtain ⟨f', e', hx⟩ := (htr j).mp ⟨x, hx⟩
      rw [hu] at hx
      cases hx
      exact absurd rfl ‹_›
  · rw [hidle] at hx
    cases hx

theorem Lax.afterFrame (s : State) : Lax 0 0 s s.afterFrame := by
  unfold State.afterFrame
  split
  · exact .setLnk s _
  · exact .freeLane s

theorem afterFrame_held {s : State} (h : s.slotsRuled) (hf : s.slotsFilled) (hu : s.lnk.u0 = .idle)
    (hn : s.lnk.state ≠ .down) : s.afterFrame.slotsHeld := by
  have hno : ∀ i f e, s.lnk.u0 ≠ .slot i f e := by rw [hu]; exact nofun
  unfold State.afterFrame
  split
  · exact held_busy (ruled_setLnk h hno (fun _ _ _ => nofun) hn) (filled_setLnk hf id) nofun
  · exact freeLane_held h hf hno hn

theorem freeLane_cap {s : State} (h : s.capHeld) : s.freeLane.capHeld := by
  have ho := (State.arbitrate_only (s.setLnk { s.lnk with u0 := .idle })).cap h
  unfold State.freeLane
  simp only
  split
  · unfold State.sendEcho
    split <;> exact h
  · split <;> exact ho

theorem afterFrame_cap {s : State} (h : s.capHeld) : s.afterFrame.capHeld := by
  unfold State.afterFrame
  split
  · exact h
  · exact freeLane_cap h

/-- U0 goes on, the slots' rules but for the arbitration being kept so far. -/
theorem afterFrame_kept {s t : State} (hp : t.pending = s.pending) (hst : s.cst.Protects t.cst)
    (hb : s.Uncapped → t.Uncapped) (ha : s.admissionHeld → t.admissionHeld) (hc : s.capHeld → t.capHeld)
    (hs : s.slotsHeld → t.slotsRuled ∧ t.slotsFilled ∧ t.lnk.u0 = .idle ∧ t.lnk.state ≠ .down) :
    Kept s t.afterFrame where
  pending := (Lax.afterFrame t).pending.trans hp
  store := hst.trans (Lax.afterFrame t).store
  bounds := (Lax.afterFrame t).bounds ∘ hb
  account := (Lax.afterFrame t).account 0 ∘ ha
  cap := afterFrame_cap ∘ hc
  slots h := by
    obtain ⟨hr, hf, hu, hn⟩ := hs h
    exact afterFrame_held hr hf hu hn

theorem completeSlot_kept {s : State} {i : Fin 4} {y : Item} {f : List Byte} {e : Nat}
    (hu : s.lnk.u0 = .slot i f e) (hy : s.rch.slots[i] = .transmitting y) : Kept s (s.completeSlot i y) := by
  have hl : Lax 0 0 s (s.emptiedSlot i y).fill := (emptiedSlot_lax hy).trans (.fill _)
  have hc : s.capHeld → (s.emptiedSlot i y).fill.capHeld := fun h =>
    (State.fill_only _).cap
      (State.capHeld_of_same (s := s) (by cases y <;> rfl) (by cases y <;> rfl) (by cases y <;> rfl) h)
  have hslots : s.slotsHeld → (s.emptiedSlot i y).fill.slotsRuled ∧ (s.emptiedSlot i y).fill.slotsFilled ∧
      (s.emptiedSlot i y).fill.lnk.u0 = .idle ∧ (s.emptiedSlot i y).fill.lnk.state ≠ .down := fun h => by
    obtain ⟨hr, hi, hn⟩ := emptiedSlot_ruled (y := y) h hu
    obtain ⟨hr, hf⟩ := State.fill_ruled hr
    exact ⟨hr, hf, by rw [State.fill_lnk]; exact hi, by rw [State.fill_lnk]; exact hn⟩
  show Kept s (if s.mge.endsReset y then (s.emptiedSlot i y).fill.hubResetEffect.afterFrame
    else (s.emptiedSlot i y).fill.afterFrame)
  split
  · refine afterFrame_kept hl.pending (hl.store.trans (Cst.hubReset_protects _ _))
      (hubResetEffect_bounds _ ∘ hl.bounds) (fun _ => hubResetEffect_account _) (fun _ => State.updateCap_held _)
      fun h => ?_
    obtain ⟨-, -, hi, hn⟩ := hslots h
    obtain ⟨hr, hf⟩ := hubResetEffect_slots hi
    obtain ⟨hs, hi'⟩ := Lnk.hubReset_state (s.emptiedSlot i y).fill.lnk
    exact ⟨hr, hf, hi'.trans hi, fun hd => hn (hs.symm.trans hd)⟩
  · exact afterFrame_kept hl.pending hl.store hl.bounds (hl.account 0) hc hslots

theorem transmissionComplete_keeps (s : State) : Completes s (execTransmissionComplete s) := by
  refine .live' s ?_
  split
  · rename_i hu
    split
    · rename_i y hy
      exact (Keeps.advanceTo s _).kept.trans (completeSlot_kept hu hy)
    · exact (Keeps.refl 0 s).kept
  · exact (Keeps.refl 0 s).kept

/-! ## Reception -/

theorem handOver_keeps (s : State) (payload frame : List Byte) (d : Destination) (hn : s.lnk.state ≠ .down) :
    Keeps 0 0 s (s.handOver payload frame d) := by
  cases d with
  | control => exact .ite (fun h => echo_keeps s frame h hn) fun _ => .controlMessage s payload
  | time => exact timeMark_keeps s payload
  | pictureL => exact pictureMessage_keeps s .left payload
  | pictureR => exact pictureMessage_keeps s .right payload
  | audio => exact audioBlock_keeps s payload
  | discard => exact .refl 0 s

theorem receive_keeps (s : State) (bytes : List Byte) (hn : s.lnk.state ≠ .down) : Keeps 0 0 s (s.receive bytes) := by
  unfold State.receive
  split
  · exact setLnk_keeps Iff.rfl rfl rfl
  · exact setLnk_keeps Iff.rfl rfl rfl
  · exact (Keeps.routed s _).andThen (handOver_keeps _ _ _ _ hn)

theorem downstreamFrameReception_keeps (bytes : List Byte) (s : State) :
    Completes s (execDownstreamFrameReception bytes s) :=
  .live s (.ite (fun hu => receive_keeps s bytes (by rw [hu]; exact nofun)) fun _ => .refl 0 s)

/-! ## The rows that time takes -/

theorem actionExpiry_keeps (s : State) : Completes s (execActionExpiry s) := by
  refine .live s ?_
  split
  · exact .refl 0 s
  · exact (Keeps.awaitTime s _).andThen (fireAll_keeps _ _ _ _)

theorem samplingTick_keeps (s : State) : Completes s (execSamplingTick s) := by
  refine .live s ?_
  split
  · exact .refl 0 s
  · rename_i due _
    refine (Keeps.advanceTo s due).andThen (Keeps.ite (fun _ => ?_) fun _ => ?_)
    · exact .then_setSummary (.then_setSmp (.setSmp rfl rfl) rfl rfl)
    · exact .then_setSmp (.setSmp rfl rfl) rfl rfl

theorem sensorReadEnd_keeps (w : BitVec 16) (s : State) : Completes s (execSensorReadEnd w s) := by
  refine .live s ?_
  split
  · exact .refl 0 s
  · split
    · exact ((Keeps.advanceTo s _).andThen (goodRead_keeps _ _ _ w)).andThen (nextRead_keeps _ _ _)
    · exact .refl 0 s

theorem failedRead_keeps (s : State) (st : SampleSet) (x : SensorSlot) : Keeps 0 0 s (s.failedRead st x).1 :=
  .setSmp rfl rfl

theorem sensorReadTimeout_keeps (s : State) : Completes s (execSensorReadTimeout s) := by
  refine .live s ?_
  split
  · exact .refl 0 s
  · split
    · exact ((Keeps.advanceTo s _).andThen (failedRead_keeps _ _ _)).andThen (nextRead_keeps _ _ _)
    · exact .refl 0 s

theorem sensorReadyLineRaised_keeps (d : Device) (s : State) : Completes s (execSensorReadyLineRaised d s) := by
  refine .live s ?_
  split
  · exact .refl 0 s
  · exact .ite (fun _ => .setSmp rfl rfl) fun _ => .refl 0 s

theorem rampUpEnd_keeps (p : Panel) (s : State) : Completes s (execRampUpEnd p s) :=
  .live s (.ite (fun _ => (Keeps.advanceTo s _).andThen (endRamp_keeps _ _ _)) fun _ => .refl 0 s)

theorem rampDownEnd_keeps (p : Panel) (s : State) : Completes s (execRampDownEnd p s) :=
  .live s (.ite (fun _ => (Keeps.advanceTo s _).andThen (endRamp_keeps _ _ _)) fun _ => .refl 0 s)

theorem refreshStart_keeps (s : State) : Completes s (execRefreshStart s) := by
  refine .live s (.ite (fun _ => finishRefresh_keeps s) fun _ => ?_)
  split
  · exact .refl 0 s
  · exact (Keeps.advanceTo s _).andThen (deliverRefresh_keeps _ _)

theorem playoutHeadDue_keeps (s : State) : Completes s (execPlayoutHeadDue s) := by
  refine .live s ?_
  split
  · rename_i b rest _ hq
    refine (Keeps.awaitTime s _).andThen (setAud_suffix ⟨[b], ?_⟩ rfl rfl)
    exact hq.symm
  · exact .refl 0 s

theorem currentBlockEnd_keeps (s : State) : Completes s (execCurrentBlockEnd s) := by
  refine .live s ?_
  split
  · exact .refl 0 s
  · exact (Keeps.advanceTo s _).andThen (endBlock_keeps _ _)

theorem passInput_keeps (s : State) (start due : Nat) : Keeps 0 0 s (s.passInput start due) :=
  .setAud_same rfl rfl rfl

theorem captureInputFrame_keeps (x y : BitVec 16) (s : State) : Completes s (execCaptureInputFrame x y s) := by
  refine .live s ?_
  split
  · exact .refl 0 s
  · exact ((Keeps.advanceTo s _).andThen (passInput_keeps _ _ _)).andThen (inputFrame_keeps _ _ _)

theorem railScanEnd_keeps (c : RailCodes) (s : State) : Completes s (execRailScanEnd c s) :=
  .live s ((Keeps.advanceTo s _).andThen (scan_keeps _ c))

/-! ## The end of a load -/

/-- What holds of the defaults and of every record accepted holds of what a block takes. -/
theorem Cst.taken_of {α : Type} {p : α → Prop} (c : Cst) (t : RecordType) {judge : List Byte → Option α} {d : α}
    (hd : p d) (hj : ∀ r a, judge r = some a → p a) : p (c.taken t judge d) := by
  unfold Cst.taken
  cases h : (c.winner t).bind fun w => judge w.2 with
  | none => exact hd
  | some a =>
    obtain ⟨w, -, hw⟩ := Option.bind_eq_some_iff.mp h
    exact hj _ _ hw

/-- Rows that the Throttle Table may hold. -/
def rowsOk (v : Vector ThrottleRow 4) : Prop :=
  (∀ i : Fin 4, v[i].emissionCap ≤ 1023 ∧ v[i].minAttenuation ≤ 255) ∧ rowsOrdered v = true

theorem rowsOk.held {p : Pmg} (h : rowsOk p.rows) : p.rowsHeld := ⟨h.1, rowsOrdered_pairs h.2⟩

theorem field_byte_le (r : List Byte) (k : Nat) : field r k 1 ≤ 255 := by
  unfold field
  cases r.drop k with
  | nil => exact Nat.zero_le _
  | cons b l => simpa [leNat] using Nat.le_of_lt_succ b.isLt

theorem throttleRow_ok {r : List Byte} {i : Nat} {x : ThrottleRow} (h : throttleRow r i = some x) :
    x.emissionCap ≤ 1023 ∧ x.minAttenuation ≤ 255 := by
  unfold throttleRow at h
  split at h
  · obtain ⟨rate, -, rfl⟩ := Option.map_eq_some_iff.mp h
    exact ⟨‹_›, field_byte_le _ _⟩
  · cases h

theorem defaultRows_ok : rowsOk Pmg.defaultRows :=
  ⟨fun i => by fin_cases i <;> exact ⟨by decide, by decide⟩, by decide⟩

theorem takeThrottleRecord_ok {r : List Byte} {v : Vector ThrottleRow 4} (h : takeThrottleRecord r = some v) :
    rowsOk v := by
  unfold takeThrottleRecord ofLength at h
  split at h
  · dsimp only at h
    split at h
    · rename_i a b c d ha hb hc hd
      split at h
      · rename_i ho
        cases h
        refine ⟨fun i => ?_, ho⟩
        fin_cases i
        · exact throttleRow_ok ha
        · exact throttleRow_ok hb
        · exact throttleRow_ok hc
        · exact throttleRow_ok hd
      · cases h
    · cases h
  · cases h

/-- Every step keeps this, the ends of loads and power-on too. -/
structure Carried (s t : State) : Prop where
  pending : t.pending = s.pending
  op : s.cst.opHeld → t.cst.opHeld
  bounds : s.Uncapped → t.Uncapped
  account : s.admissionHeld → t.admissionHeld
  cap : s.capHeld → t.capHeld
  slots : s.slotsHeld → t.slotsHeld

theorem Kept.carried {s t : State} (h : Kept s t) : Carried s t :=
  ⟨h.pending, fun k => (h.store k).1, h.bounds, h.account, h.cap, h.slots⟩

theorem Carried.trans {s t u : State} (h : Carried s t) (g : Carried t u) : Carried s u :=
  ⟨g.pending.trans h.pending, g.op ∘ h.op, g.bounds ∘ h.bounds, g.account ∘ h.account, g.cap ∘ h.cap,
    g.slots ∘ h.slots⟩

theorem Aud.load_same (a : Aud) (osc : Nat) : (a.load osc).queue = a.queue ∧
    (a.load osc).captureQueue = a.captureQueue ∧ (a.load osc).requestedAtt = a.requestedAtt := by
  unfold Aud.load
  split <;> exact ⟨rfl, rfl, rfl⟩

theorem Cst.opHeld_of_idle {c : Cst} (h : c.op = .idle) : c.opHeld := by
  unfold Cst.opHeld
  rw [h]
  trivial

/-- The store at a load's end: no operation is in progress. -/
theorem setCst_idle_carried {s : State} {b : Cst} (ho : b.op = .idle) (ha : b.array = s.cst.array) :
    Carried s (s.setCst b) where
  pending := rfl
  op _ := Cst.opHeld_of_idle ho
  bounds h := { h with store := (congrArg storeWf ha).trans h.store, op := Cst.opHeld_of_idle ho }
  account h := h
  cap h := h
  slots h := h

theorem Smp.load_same (m : Smp) (c : Cst) (osc : Nat) :
    (m.load c osc).ring = m.ring ∧ (m.load c osc).presence = m.presence := by
  simp only [Smp.load, and_self]

theorem Pmg.load_held {p : Pmg} {c : Cst} (h : p.held) : (p.load c).held := by
  simpa only [Pmg.held, Pmg.load] using h

/-- The records' blocks but for the store and the Power Manager. -/
def State.loadedRecords (s : State) : State :=
  (((((s.setSmp (s.smp.load s.cst s.osc)).setOri
    { s.ori with axisMap := s.cst.taken .axis takeAxisRecord AxisMap.default }).setSco
    { s.sco with geometry := s.cst.taken .panel takePanelRecord Geometry.default }).setAud
    (s.aud.load s.osc)).setLnk (s.lnk.load s.cst)).setCfl (s.cfl.load s.cst)

theorem State.endLoad_eq (s : State) :
    s.endLoad = ((s.loadedRecords.setCst s.cst.endLoad).setPmg (s.pmg.load s.cst)).updateCap.tryTrain := by
  simp only [State.endLoad, State.loadedRecords, State.setSmp, State.setOri, State.setSco, State.setAud, State.setLnk,
    State.setCfl, State.setCst, State.setPmg]

theorem loadedRecords_keeps (s : State) : Keeps 0 0 s s.loadedRecords := by
  obtain ⟨hq, hc, ha⟩ := s.aud.load_same s.osc
  refine Keeps.andThen ?_ (.setCfl _ _)
  refine Keeps.andThen ?_ (setLnk_keeps Iff.rfl rfl rfl)
  refine Keeps.andThen ?_ (.setAud_same (by simpa using hq) (by simpa using hc) (by simpa using ha))
  refine Keeps.andThen ?_ (.setSco_same (by simp))
  refine Keeps.andThen ?_ (.setOri (by simp))
  exact .setSmp (s.smp.load_same s.cst s.osc).1 (s.smp.load_same s.cst s.osc).2

theorem endLoad_carried (s : State) : Carried s s.endLoad := by
  rw [State.endLoad_eq]
  have hr : (s.pmg.load s.cst).rowsHeld :=
    rowsOk.held (by
      simp only [Pmg.load]
      exact Cst.taken_of _ _ defaultRows_ok fun _ _ => takeThrottleRecord_ok)
  have hp : Keeps 0 0 (s.loadedRecords.setCst s.cst.endLoad)
      ((s.loadedRecords.setCst s.cst.endLoad).setPmg (s.pmg.load s.cst)).updateCap :=
    setPmg_updateCap_keeps (b := s.pmg.load s.cst) (by simpa [State.loadedRecords] using Pmg.load_held) fun _ => hr
  have hc : Carried s.loadedRecords (s.loadedRecords.setCst s.cst.endLoad) :=
    setCst_idle_carried rfl (by simp [State.loadedRecords, Cst.endLoad])
  exact ((loadedRecords_keeps s).kept.carried.trans hc).trans
    (hp.kept.carried.trans (tryTrain_keeps _).kept.carried)

theorem storeLoadEnd_carried (s : State) : ∃ t, execStoreLoadEnd s = .next t ∧ Carried s t := by
  refine ⟨_, rfl, ?_⟩
  split
  · dsimp only
    split
    · exact (Keeps.advanceTo s _).kept.carried.trans (endLoad_carried _)
    · exact (Keeps.refl 0 s).kept.carried
  · exact (Keeps.refl 0 s).kept.carried

/-! ## Power-on -/

theorem Eye.reset_ok : Eye.reset.slotsOk := fun i j _ h => by
  have hf : Eye.reset.slots[i].state = .free := by simp [Eye.reset, FrameSlot.freed]
  rw [hf] at h
  rcases h with h | h <;> cases h

theorem powerOn_bounds (s : State) (h : storeWf s.cst.array = true) : s.powerOn.Uncapped where
  queues := ⟨Nat.zero_le _, Nat.zero_le _, Nat.zero_le _, .nil⟩
  table := ⟨Nat.zero_le _, .nil⟩
  order := .nil
  rings := ⟨Nat.zero_le _, Nat.zero_le _, rfl⟩
  eyes p := by cases p <;> exact Eye.reset_ok
  power := show Pmg.reset.held from ⟨rfl, by decide, by decide⟩
  rows := rowsOk.held (p := Pmg.reset) defaultRows_ok
  level := show (24 : Nat) ≤ 255 by decide
  store := h
  op := trivial

theorem powerOn_slots (s : State) : s.powerOn.slotsHeld := held_down rfl rfl rfl

theorem powerOn_carried (s : State) : Carried s s.powerOn where
  pending := rfl
  op _ := trivial
  bounds h := powerOn_bounds s h.store
  account _ := ⟨rfl, Nat.zero_le _⟩
  cap _ := ⟨Nat.zero_le _, Nat.zero_le _⟩
  slots _ := powerOn_slots s

theorem powerOnReset_carried (s : State) : ∃ t, execPowerOnReset s = .next t ∧ Carried s t := by
  refine ⟨_, rfl, ?_⟩
  split
  · exact (cutOp_keeps s).kept.carried.trans (powerOn_carried _)
  · exact powerOn_carried s

end Sys2Proof.Machine
end

section
/-! The step lemmas of the invariants, and the obligations on every command and every step. -/

namespace Sys2Proof.Machine

/-! ## Every command -/

/-- Every command but a load's end and power-on completes, and keeps what every step keeps between loads. -/
theorem exec_completes (c : Instr) (s : State) (hl : c ≠ .storeLoadEnd) (hp : c ≠ .powerOnReset) :
    Completes s (exec c s) := by
  cases c with
  | powerOnReset => exact absurd rfl hp
  | storeLoadEnd => exact absurd rfl hl
  | readTime tag ps => exact .immediate s _ _ _ (readTime_keeps ps)
  | addAction tag ps => exact .immediate s _ _ _ (addAction_keeps ps)
  | cancelAction tag ps => exact .immediate s _ _ _ (cancelAction_keeps ps)
  | listActions tag ps => exact .immediate s _ _ _ (listActions_keeps ps)
  | groupTrigger tag ps => exact .immediate s _ _ _ (groupTrigger_keeps ps)
  | actionExpiry => exact actionExpiry_keeps s
  | downstreamFrameReception bytes => exact downstreamFrameReception_keeps bytes s
  | requestUnknownKind kind tag ps => exact requestUnknownKind_keeps kind tag ps s
  | setSchedule tag ps => exact .immediate s _ _ _ (setSchedule_keeps ps)
  | setSamplingRate tag ps => exact .immediate s _ _ _ (setSamplingRate_keeps ps)
  | setCalibration tag ps => exact .immediate s _ _ _ (setCalibration_keeps ps)
  | setStillness tag ps => exact .immediate s _ _ _ (setStillness_keeps ps)
  | setWear tag ps => exact .immediate s _ _ _ (setWear_keeps ps)
  | setMotionReporting tag ps => exact .immediate s _ _ _ (setMotionReporting_keeps ps)
  | readSamples tag ps => exact .immediate s _ _ _ (readSamples_keeps ps)
  | readMotionStatus tag ps => exact .immediate s _ _ _ (readMotionStatus_keeps ps)
  | samplingTick => exact samplingTick_keeps s
  | sensorReadEnd word => exact sensorReadEnd_keeps word s
  | sensorReadTimeout => exact sensorReadTimeout_keeps s
  | readOrientation tag ps => exact .immediate s _ _ _ (readOrientation_keeps ps)
  | setDisplayMode tag ps => exact .immediate s _ _ _ (setDisplayMode_keeps ps)
  | readPictureStatus tag ps => exact .immediate s _ _ _ (readPictureStatus_keeps ps)
  | panelsOn tag ps => exact .long s _ _ _ (panelsOn_keeps ps)
  | panelsOff tag ps => exact .long s _ _ _ (panelsOff_keeps ps)
  | panelsShow tag ps => exact .immediate s _ _ _ (panelsShow_keeps ps)
  | panelsStandby tag ps => exact .immediate s _ _ _ (panelsStandby_keeps ps)
  | setEmission tag ps => exact .immediate s _ _ _ (setEmission_keeps ps)
  | setPanelGeometry tag ps => exact .immediate s _ _ _ (setPanelGeometry_keeps ps)
  | readScanStatus tag ps => exact .immediate s _ _ _ (readScanStatus_keeps ps)
  | rampUpEnd panel => exact rampUpEnd_keeps panel s
  | rampDownEnd panel => exact rampDownEnd_keeps panel s
  | refreshStart => exact refreshStart_keeps s
  | setAttenuation tag ps => exact .immediate s _ _ _ (setAttenuation_keeps ps)
  | startCapture tag ps => exact .immediate s _ _ _ (startCapture_keeps ps)
  | stopCapture tag ps => exact .immediate s _ _ _ (stopCapture_keeps ps)
  | readAudioStatus tag ps => exact .immediate s _ _ _ (readAudioStatus_keeps ps)
  | playoutHeadDue => exact playoutHeadDue_keeps s
  | currentBlockEnd => exact currentBlockEnd_keeps s
  | captureInputFrame first second => exact captureInputFrame_keeps first second s
  | powerGrant tag ps => exact .immediate s _ _ _ (powerGrant_keeps ps)
  | setThrottleRow tag ps => exact .immediate s _ _ _ (setThrottleRow_keeps ps)
  | setPowerPolicy tag ps => exact .immediate s _ _ _ (setPowerPolicy_keeps ps)
  | readPowerStatus tag ps => exact .immediate s _ _ _ (readPowerStatus_keeps ps)
  | railScanEnd codes => exact railScanEnd_keeps codes s
  | readLinkStatus tag ps => exact .immediate s _ _ _ (readLinkStatus_keeps ps)
  | readLinkCounters tag ps => exact .immediate s _ _ _ (readLinkCounters_keeps ps)
  | setLinkQuality tag ps => exact .immediate s _ _ _ (setLinkQuality_keeps ps)
  | linkRetrain tag ps cut => exact .long s _ _ _ (linkRetrain_keeps cut ps)
  | linkLoopback tag ps => exact .immediate s _ _ _ (linkLoopback_keeps ps)
  | d0SignalDetect => exact d0SignalDetect_keeps s
  | backoffEnd => exact backoffEnd_keeps s
  | laneWordLock lane => exact laneWordLock_keeps lane s
  | laneLockLoss lane cut => exact laneLockLoss_keeps lane cut s
  | hostAbilityWord word => exact hostAbilityWord_keeps word s
  | trainingLimitExpiry => exact trainingLimitExpiry_keeps s
  | recoveryLimitExpiry => exact recoveryLimitExpiry_keeps s
  | qualityWindowEnd energies cut => exact qualityWindowEnd_keeps energies cut s
  | quietMarker cut => exact quietMarker_keeps cut s
  | wakeMarker => exact wakeMarker_keeps s
  | loopbackTimerExpiry => exact loopbackTimerExpiry_keeps s
  | echoTransmissionComplete => exact echoTransmissionComplete_keeps s
  | abilityWordEnd => exact abilityWordEnd_keeps s
  | transmissionComplete => exact transmissionComplete_keeps s
  | setChannelFilter tag ps => exact .immediate s _ _ _ (setChannelFilter_keeps ps)
  | readChannelFilter tag ps => exact .immediate s _ _ _ (readChannelFilter_keeps ps)
  | setReturnPriority tag ps => exact .immediate s _ _ _ (setReturnPriority_keeps ps)
  | readReturnStatus tag ps => exact .immediate s _ _ _ (readReturnStatus_keeps ps)
  | identify tag ps => exact .immediate s _ _ _ (identify_keeps ps)
  | readSummary tag ps => exact .immediate s _ _ _ (readSummary_keeps ps)
  | setAttentionEnable tag ps => exact .immediate s _ _ _ (setAttentionEnable_keeps ps)
  | setReportEnable tag ps => exact .immediate s _ _ _ (setReportEnable_keeps ps)
  | functionClearPicture tag ps => exact clearRow_keeps s _ tag ps clearPicture_keeps
  | functionClearAudio tag ps => exact clearRow_keeps s _ tag ps clearAudio_keeps
  | functionClearMotion tag ps => exact clearRow_keeps s _ tag ps clearMotion_keeps
  | functionClearActions tag ps => exact clearRow_keeps s _ tag ps clearActions_keeps
  | functionClearCounters tag ps => exact clearRow_keeps s _ tag ps clearCounters_keeps
  | hubReset tag ps => exact hubReset_keeps tag ps s
  | erasePage tag ps => exact .long s _ _ _ (erasePage_keeps ps)
  | programStore tag ps => exact .long s _ _ _ (programStore_keeps ps)
  | eraseEnd => exact eraseEnd_keeps s
  | programEnd => exact programEnd_keeps s
  | readStore tag ps => exact .immediate s _ _ _ (readStore_keeps ps)
  | blankCheck tag ps => exact .immediate s _ _ _ (blankCheck_keeps ps)
  | setProtectBoundary tag ps => exact .immediate s _ _ _ (setProtectBoundary_keeps ps)
  | readStoreMap tag ps => exact .immediate s _ _ _ (readStoreMap_keeps ps)
  | tetherPowerLoss => exact tetherPowerLoss_keeps s
  | sensorReadyLineRaised device => exact sensorReadyLineRaised_keeps device s
  | d0SignalLoss => exact d0SignalLoss_keeps s

/-- Every command completes and keeps the invariants. -/
theorem exec_carries (c : Instr) (s : State) : ∃ t, exec c s = .next t ∧ Carried s t := by
  by_cases hl : c = .storeLoadEnd
  · subst hl
    exact storeLoadEnd_carried s
  · by_cases hp : c = .powerOnReset
    · subst hp
      exact powerOnReset_carried s
    · obtain ⟨t, ht, hk⟩ := exec_completes c s hl hp
      exact ⟨t, ht, hk.carried⟩

/-! ## Every step -/

theorem idle_keeps (s : State) : Keeps 0 0 s s.idle := .ite (fun _ => .advanceTo s _) fun _ => .refl 0 s

/-- What a state keeps when its queue of commands alone is changed. -/
theorem setPending_keeps (s : State) (q : List Instr) :
    (s.Uncapped → (s.setPending q).Uncapped) ∧ (s.capHeld → (s.setPending q).capHeld) ∧
      (s.admissionHeld → (s.setPending q).admissionHeld) ∧ (s.slotsHeld → (s.setPending q).slotsHeld) :=
  ⟨fun h => { h with }, fun h => h, fun h => h, fun h => h⟩

/-- Every step keeps the invariants. -/
structure StepKept (s t : State) : Prop where
  op : s.cst.opHeld → t.cst.opHeld
  bounded : s.Bounded → t.Bounded
  account : s.admissionHeld → t.admissionHeld
  slots : s.slotsHeld → t.slotsHeld

theorem Carried.step {s t : State} {q : List Instr} (h : Carried (s.setPending q) t) : StepKept s t := by
  obtain ⟨hb, hc, ha, hs⟩ := setPending_keeps s q
  refine ⟨h.op, fun k => ?_, h.account ∘ ha, h.slots ∘ hs⟩
  obtain ⟨ku, kc⟩ := s.bounded_iff.mp k
  exact t.bounded_iff.mpr ⟨h.bounds (hb ku), h.cap (hc kc)⟩

theorem step_kept {s t : State} (h : step s = .next t) : StepKept s t := by
  unfold step at h
  split at h
  · cases h
    exact Carried.step (q := s.pending) (idle_keeps s).kept.carried
  · rename_i c rest _
    obtain ⟨u, hu, hk⟩ := exec_carries c (s.setPending rest)
    rw [hu] at h
    cases h
    exact hk.step

/-- Between loads a step leaves the protected pages as they are. -/
theorem step_protects {s t : State} (h : step s = .next t) (hl : s.pending.head? ≠ some .storeLoadEnd)
    (hp : s.pending.head? ≠ some .powerOnReset) : s.cst.Protects t.cst := by
  unfold step at h
  split at h
  · cases h
    exact (idle_keeps s).store
  · rename_i c rest hq
    rw [hq] at hl hp
    obtain ⟨u, hu, hk⟩ := exec_completes c (s.setPending rest) (fun e => hl (congrArg some e))
      (fun e => hp (congrArg some e))
    rw [hu] at h
    cases h
    exact hk.store

/-- Settles O56: between loads each operation of the model keeps `Cst.Protects`; a load's end and power-on keep
that an operation in progress lies above the boundary. -/
theorem protectedPagesNeverChange : Obligations.ProtectedPagesNeverChange := by
  intro s t ho h
  refine ⟨(step_kept h).op ho, fun hl hp => ?_⟩
  obtain ⟨-, hb, ha⟩ := step_protects h hl hp ho
  exact ⟨hb, ha⟩

/-- Settles O57, by the step lemma of the bounds. -/
theorem everyStepKeepsBounds : Obligations.EveryStepKeepsBounds := fun _ _ h hs => (step_kept hs).bounded h

/-- The Reply Queue holds no more than the account admits. -/
theorem replies_le_of_admissionHeld {s : State} (h : s.admissionHeld) : s.mge.replies.length ≤ 8 := by
  obtain ⟨ha, hb⟩ := h
  rw [State.outgoing_length] at ha
  omega

/-- Settles O58, by the step lemma of the admission account. -/
theorem everyStepKeepsAdmissionCount : Obligations.EveryStepKeepsAdmissionCount :=
  ⟨fun _ _ h hs => (step_kept hs).account h, fun _ => replies_le_of_admissionHeld⟩

/-- Settles O59, by the step lemma of the slots' rules. -/
theorem everyStepKeepsTransmitSlots : Obligations.EveryStepKeepsTransmitSlots :=
  fun _ _ h hs => (step_kept hs).slots h

/-- Settles O3: every command completes, and what it keeps includes the queue behind it. -/
theorem everyCommandCompletes : Obligations.EveryCommandCompletes := fun c s => by
  obtain ⟨t, ht, hk⟩ := exec_carries c s
  exact ⟨t, ht, hk.pending⟩

/-- Settles O60: the state after reset is one that power-on leaves. -/
theorem resetMeetsInvariants : Obligations.ResetMeetsInvariants := by
  have hr : State.reset = State.reset.powerOn := rfl
  refine ⟨State.reset.bounded_iff.mpr ⟨?_, Nat.zero_le _, Nat.zero_le _⟩, ⟨rfl, Nat.zero_le _⟩, ?_, trivial⟩
  · rw [hr]
    exact powerOn_bounds _ rfl
  · rw [hr]
    exact powerOn_slots _

/-- Settles O1: the queue's front is what a step takes. -/
theorem stepRunsFrontCommand : Obligations.StepRunsFrontCommand := fun _ _ _ => rfl

/-! ## A part without power -/

theorem clearRow_unpowered {s : State} (h : s.powered = false) (own : Nat) (effect : State → State) (tag : Byte)
    (ps : List Byte) : s.clearRow own effect tag ps = .next s := by
  unfold State.clearRow
  split
  · rfl
  · exact s.live_unpowered h _

theorem requestUnknownKind_unpowered {s : State} (h : s.powered = false) (kind tag : Byte) (ps : List Byte) :
    execRequestUnknownKind kind tag ps s = .next s := by
  unfold execRequestUnknownKind
  split
  · rfl
  · exact s.live_unpowered h _

/-- Without power a command changes nothing, but that power comes on and that signal comes or goes. -/
theorem exec_unpowered (c : Instr) {s : State} (h : s.powered = false) (hp : c ≠ .powerOnReset)
    (hd : c ≠ .d0SignalDetect) (hl : c ≠ .d0SignalLoss) : exec c s = .next s := by
  have hn : ¬ s.powered = true := by rw [h]; decide
  cases c with
  | powerOnReset => exact absurd rfl hp
  | requestUnknownKind => exact requestUnknownKind_unpowered h _ _ _
  | d0SignalDetect => exact absurd rfl hd
  | functionClearPicture => exact clearRow_unpowered h _ _ _ _
  | functionClearAudio => exact clearRow_unpowered h _ _ _ _
  | functionClearMotion => exact clearRow_unpowered h _ _ _ _
  | functionClearActions => exact clearRow_unpowered h _ _ _ _
  | functionClearCounters => exact clearRow_unpowered h _ _ _ _
  | d0SignalLoss => exact absurd rfl hl
  | _ => exact congrArg Host.Outcome.next (if_neg hn)

/-- One microsecond is 750 clock periods, in which Tether Time counts one. -/
theorem idle_eq (s : State) (h : s.powered = true) :
    s.idle = { s with osc := s.osc + 750, tas := { s.tas with now := s.tas.now + 1 } } := by
  have ho : max s.osc (s.osc + us 1) = s.osc + 750 := by unfold us; omega
  have hd : (s.osc + 750) / 750 - s.osc / 750 = 1 := by omega
  rw [State.idle, if_pos h, State.advanceTo_eq, ho, hd]
  rfl

theorem step_of_pending_nil {s : State} (h : s.pending = []) : step s = .next s.idle := by
  unfold step
  rw [h]

/-- Settles O2: an idle step lets one microsecond pass; the other clauses are the rows of a part without power. -/
theorem idleAndUnpoweredSteps : Obligations.IdleAndUnpoweredSteps := by
  refine ⟨fun s hq => ?_, fun c s h hp hd hl => exec_unpowered c h hp hd hl, fun s h => ⟨?_, rfl⟩⟩
  · rw [step_of_pending_nil hq]
    refine ⟨fun h => by rw [idle_eq s h], fun h => ?_⟩
    rw [State.idle, if_neg (by rw [h]; decide)]
  · exact State.live_unpowered (s := s.setLnk { s.lnk with d0Signal := true }) h State.tryTrain

end Sys2Proof.Machine
end

section
/-! Power and start-up: power-on, power loss, the end of a load, the records of the store. -/

namespace Sys2Proof.Machine

theorem exec_powerOnReset (s : State) : exec .powerOnReset s = .next (if s.powered then s.cutOp.powerOn else s.powerOn) :=
  rfl

theorem exec_tetherPowerLoss (s : State) :
    exec .tetherPowerLoss s = s.live fun s => { s.cutOp with powered := false } := rfl

/-! ## Power-on -/

theorem powerOn_slots_free (s : State) (p : Panel) (i : Fin 3) : (s.powerOn.fri.eyes.get p).slots[i].state = .free := by
  have hf : Eye.reset.slots[i].state = .free := by simp [Eye.reset, FrameSlot.freed]
  cases p <;> exact hf

theorem powerOn_filter (s : State) (i : Fin 8) :
    s.powerOn.cfl.entries[i].enabled = false ∧ s.powerOn.cfl.entries[i].hits = 0 := by
  have he : Cfl.reset.entries[i] = ⟨false, 0, 0, .discard, 0⟩ := by simp [Cfl.reset]
  exact ⟨congrArg FilterEntry.enabled he, congrArg FilterEntry.hits he⟩

theorem powerOn_scanDue (s : State) : s.powerOn.pmg.scanDue = s.powerOn.osc + 1000 * 750 := by
  show (750000 : Nat) = 0 + 1000 * 750
  norm_num

theorem powerOn_loading (s : State) : s.powerOn.cst.op = .loading (s.powerOn.osc + ms 5) := by
  show StoreOp.loading 3750000 = .loading (0 + ms 5)
  norm_num [ms]

/-- Settles O7: power-on takes nothing of the blocks that were; a power loss before it changes nothing that it
takes. -/
theorem powerOnResetValues : Obligations.PowerOnResetValues := by
  refine ⟨fun s h => ⟨s.powerOn, ?_, rfl, rfl, rfl, rfl, rfl, fun p => ⟨?_, ?_, powerOn_slots_free s p⟩, fun p => ?_,
    rfl, rfl, rfl, rfl, rfl, rfl, rfl, rfl, rfl, rfl, rfl, rfl, rfl, rfl, rfl, rfl, rfl, powerOn_scanDue s, rfl,
    powerOn_filter s, rfl, rfl, rfl, rfl, rfl, rfl, rfl, rfl, rfl, rfl, rfl, rfl, rfl, rfl, rfl, powerOn_loading s,
    rfl, rfl, rfl, rfl, rfl, rfl, rfl, rfl, rfl, rfl, rfl⟩, fun s t h => ?_⟩
  · rw [exec_powerOnReset, if_neg (by rw [h]; decide)]
  · cases p <;> rfl
  · cases p <;> rfl
  · cases p <;> rfl
  · rw [exec_tetherPowerLoss] at h
    by_cases hp : s.powered = true
    · rw [State.live_powered hp] at h
      cases h
      rw [exec_powerOnReset, if_pos hp]
      rfl
    · rw [State.live_unpowered (by simpa using hp)] at h
      cases h
      rfl

/-! ## Power loss -/

theorem State.cutOp_idle {s : State} (he : ∀ p e, s.cst.op ≠ .erasing p e)
    (hp : ∀ p o d e, s.cst.op ≠ .programming p o d e) : s.cutOp = s := by
  unfold State.cutOp
  split
  · exact absurd ‹_› (he _ _)
  · exact absurd ‹_› (hp _ _ _ _)
  · rfl

/-- A cut write leaves its page failing its check. -/
theorem State.cutWrite_fails {s : State} {page i n : Nat} (hw : storeWf s.cst.array = true) (hn : 1 ≤ n)
    (hi : i + n ≤ pageSize) (hp : page < 8) :
    bytesValid (pageBytes (s.cutWrite page (page * pageSize + i) n).cst.array page) = false := by
  have hs : storeWf (s.scramble (page * pageSize + i) n).cst.array = true :=
    State.scramble_wf n _ (by unfold pageSize at hi ⊢; omega) hw
  unfold State.cutWrite
  simp only
  split
  · exact State.alter_fails hs (by omega) ‹_›
  · exact Bool.eq_false_iff.mpr ‹_›

/-- A write that was cut: its page fails, the bytes beside it stand, and the array alone has changed. -/
theorem cutWrite_outcome {s : State} {p : Fin 8} {o first n : Nat} (hw : storeWf s.cst.array = true)
    (hf : first = p.val * 1024 + o) (hn : 1 ≤ n) (ho : o + n ≤ 1024)
    (hc : s.cutOp = s.cutWrite p.val (p.val * pageSize + o) n) :
    (∀ c : Cst, c.array = s.cutOp.cst.array → c.pageValid p = false) ∧
      ∀ a, a < first ∨ first + n ≤ a → storeRead s.cutOp.cst.array a = storeRead s.cst.array a := by
  rw [hc]
  refine ⟨fun c hca => ?_, fun a ha => State.cutWrite_other s _ hn (by unfold pageSize; omega)⟩
  rw [Cst.pageValid, hca]
  exact State.cutWrite_fails hw hn ho p.isLt

/-- Settles O8, by what a cut write leaves. -/
theorem powerLossCutsStoreOperation : Obligations.PowerLossCutsStoreOperation := by
  intro s hp
  rw [exec_tetherPowerLoss, State.live_powered hp]
  refine ⟨fun he hg => by rw [State.cutOp_idle he hg], fun p first n hw hop => ⟨_, rfl, rfl, ?_⟩⟩
  obtain ⟨hv, ho⟩ : (∀ c : Cst, c.array = s.cutOp.cst.array → c.pageValid p = false) ∧
      ∀ a, a < first ∨ first + n ≤ a → storeRead s.cutOp.cst.array a = storeRead s.cst.array a := by
    rcases hop with ⟨⟨e, ho⟩, hf, hn⟩ | ⟨o, d, e, ho, hf, hn, h1, h2⟩
    · subst hn
      exact cutWrite_outcome (o := 0) hw (hf.trans (Nat.add_zero _).symm) (by decide) (by decide) (by
        rw [State.cutOp, ho, Nat.add_zero]
        rfl)
    · subst hn
      exact cutWrite_outcome hw hf h1 h2 (by rw [State.cutOp, ho])
  obtain ⟨k, m, hm⟩ := s.cutOp_rewritten
  refine ⟨hv, ho, ?_⟩
  show ({ s.cutOp with powered := false } : State) = { s with
    powered := false
    freeIndex := s.cutOp.freeIndex
    cst := { s.cst with array := s.cutOp.cst.array } }
  rw [hm]
  rfl

end Sys2Proof.Machine
end

section
/-! What time that passes leaves unchanged, what entry to TRAIN leaves, and the end of a load. -/

namespace Sys2Proof.Machine

/-! ## Time that passes -/

section advanceTo
variable (s : State) (n : Nat)

@[simp] theorem State.advanceTo_osc : (s.advanceTo n).osc = max s.osc n := rfl
@[simp] theorem State.advanceTo_powered : (s.advanceTo n).powered = s.powered := rfl
@[simp] theorem State.advanceTo_freeIndex : (s.advanceTo n).freeIndex = s.freeIndex := rfl
@[simp] theorem State.advanceTo_smp : (s.advanceTo n).smp = s.smp := rfl
@[simp] theorem State.advanceTo_ori : (s.advanceTo n).ori = s.ori := rfl
@[simp] theorem State.advanceTo_fri : (s.advanceTo n).fri = s.fri := rfl
@[simp] theorem State.advanceTo_sco : (s.advanceTo n).sco = s.sco := rfl
@[simp] theorem State.advanceTo_aud : (s.advanceTo n).aud = s.aud := rfl
@[simp] theorem State.advanceTo_pmg : (s.advanceTo n).pmg = s.pmg := rfl
@[simp] theorem State.advanceTo_lnk : (s.advanceTo n).lnk = s.lnk := rfl
@[simp] theorem State.advanceTo_cfl : (s.advanceTo n).cfl = s.cfl := rfl
@[simp] theorem State.advanceTo_rch : (s.advanceTo n).rch = s.rch := rfl
@[simp] theorem State.advanceTo_mge : (s.advanceTo n).mge = s.mge := rfl
@[simp] theorem State.advanceTo_cst : (s.advanceTo n).cst = s.cst := rfl
@[simp] theorem State.advanceTo_pending : (s.advanceTo n).pending = s.pending := rfl
@[simp] theorem State.advanceTo_turns : (s.advanceTo n).turns = s.turns := rfl
@[simp] theorem State.advanceTo_table : (s.advanceTo n).tas.table = s.tas.table := rfl

end advanceTo

/-! ## Entry to TRAIN -/

/-- The link as an attempt to enter TRAIN leaves it. -/
def Lnk.tried (l : Lnk) (osc : Nat) : Lnk :=
  if l.state = .down ∧ l.backoff = none ∧ l.loaded = true ∧ l.d0Signal = true then
    { l with
      state := .train
      limit := some (osc + ms 100)
      heldWord := none
      sentRequest := l.ownRequest
      sentUser := l.ownUser
      u0 := .abilityWord ⟨true, true, 4, true, l.ownRequest, l.ownUser⟩ (osc + 192) }
  else l

theorem Lnk.mayTrain_iff (l : Lnk) : l.mayTrain = true ↔
    l.state = .down ∧ l.backoff = none ∧ l.loaded = true ∧ l.d0Signal = true := by
  simp [Lnk.mayTrain, and_assoc]

/-- An attempt to enter TRAIN changes the link alone, and moves messages. -/
theorem State.tryTrain_only (s : State) : OnlyMessages (s.setLnk (s.lnk.tried s.osc)) s.tryTrain := by
  unfold State.tryTrain Lnk.tried
  simp only [← Lnk.mayTrain_iff]
  split
  · exact State.enterTrain_only s
  · exact .refl s

theorem State.tryTrain_lnk (s : State) : s.tryTrain.lnk = s.lnk.tried s.osc := by
  unfold State.tryTrain Lnk.tried
  simp only [← Lnk.mayTrain_iff]
  split
  · exact State.fill_lnk _
  · rfl

/-! ## The end of a load -/

theorem exec_storeLoadEnd {s : State} {ends : Nat} (hp : s.powered = true) (ho : s.cst.op = .loading ends) :
    exec .storeLoadEnd s = .next (s.advanceTo ends).endLoad := by
  have he : exec .storeLoadEnd s = execStoreLoadEnd s := rfl
  rw [he, execStoreLoadEnd, State.live_powered hp]
  simp only [ho]

/-- The state that a load's end has made before the link tries to enter TRAIN. -/
def State.loadedState (s : State) : State :=
  ((s.loadedRecords.setCst s.cst.endLoad).setPmg (s.pmg.load s.cst)).updateCap

section loadedState
variable (s : State)

theorem State.loadedState_osc : s.loadedState.osc = s.osc := by
  simp only [State.loadedState, State.loadedRecords, State.updateCap, State.setSco_osc, State.setPmg_osc,
    State.setCst_osc, State.setCfl_osc, State.setLnk_osc, State.setAud_osc, State.setOri_osc, State.setSmp_osc]

theorem State.loadedState_lnk : s.loadedState.lnk = s.lnk.load s.cst := by
  simp [State.loadedState, State.loadedRecords, State.updateCap]

theorem State.loadedState_cst : s.loadedState.cst = s.cst.endLoad := by
  simp [State.loadedState, State.loadedRecords, State.updateCap]

theorem State.loadedState_smp : s.loadedState.smp = s.smp.load s.cst s.osc := by
  simp [State.loadedState, State.loadedRecords, State.updateCap]

theorem State.loadedState_ori : s.loadedState.ori =
    { s.ori with axisMap := s.cst.taken .axis takeAxisRecord AxisMap.default } := by
  simp [State.loadedState, State.loadedRecords, State.updateCap]

theorem State.loadedState_pmg : s.loadedState.pmg = s.pmg.load s.cst := by
  simp [State.loadedState, State.loadedRecords, State.updateCap]

theorem State.loadedState_cfl : s.loadedState.cfl = s.cfl.load s.cst := by
  simp [State.loadedState, State.loadedRecords, State.updateCap]

theorem State.loadedState_aud : s.loadedState.aud = s.aud.load s.osc := by
  simp [State.loadedState, State.loadedRecords, State.updateCap]

theorem State.loadedState_same : s.loadedState.tas = s.tas ∧ s.loadedState.fri = s.fri ∧ s.loadedState.mge = s.mge := by
  simp [State.loadedState, State.loadedRecords, State.updateCap]

theorem State.loadedState_geometry :
    s.loadedState.sco.geometry = s.cst.taken .panel takePanelRecord Geometry.default := by
  simp [State.loadedState, State.loadedRecords, State.updateCap]

end loadedState

theorem State.endLoad_only (s : State) :
    OnlyMessages (s.loadedState.setLnk ((s.lnk.load s.cst).tried s.osc)) s.endLoad := by
  rw [State.endLoad_eq, ← s.loadedState_lnk, ← s.loadedState_osc]
  exact State.tryTrain_only s.loadedState

theorem State.endLoad_lnk (s : State) : s.endLoad.lnk = (s.lnk.load s.cst).tried s.osc := by
  rw [State.endLoad_eq, ← s.loadedState_lnk, ← s.loadedState_osc]
  exact State.tryTrain_lnk s.loadedState

theorem Smp.load_eq (m : Smp) (c : Cst) (osc : Nat) : m.load c osc = { m with
    slotList := (c.taken .schedule takeScheduleRecord .default).slots
    requestedRate := (c.taken .schedule takeScheduleRecord .default).rate
    calibration := c.taken .sensor takeSensorRecord (.const Calibration.default)
    settings := (c.taken .wear takeWearRecord .default).settings
    reporting := true
    batchSize := 1
    batch := []
    tickDue := if (c.taken .schedule takeScheduleRecord .default).slots = [] then none else some osc } := by
  simp only [Smp.load, List.isEmpty_iff]

theorem Pmg.load_eq (p : Pmg) (c : Cst) : p.load c = { p with
    rows := c.taken .throttle takeThrottleRecord Pmg.defaultRows
    hysteresis := (c.taken .power takePowerRecord .default).hysteresis
    windowLength := (c.taken .power takePowerRecord .default).windowLength
    stillEmission := (c.taken .wear takeWearRecord .default).stillEmission
    window := some ⟨0, 0⟩ } := by
  simp only [Pmg.load]

/-- Each panel as a load's end leaves it: its applied emission is held to the cap. -/
theorem State.loadedState_panel (s : State) (p : Panel) :
    s.loadedState.panel p = { s.panel p with applied := min (s.panel p).applied s.loadedState.emissionCap } := by
  have hc : s.loadedState.emissionCap = ((s.loadedRecords.setCst s.cst.endLoad).setPmg (s.pmg.load s.cst)).emissionCap := by
    unfold State.emissionCap State.presenceCap State.loadedState
    simp only [State.updateCap, State.setSco_smp, State.setSco_pmg]
  rw [hc]
  have hs : (s.loadedRecords.setCst s.cst.endLoad).sco.panels = s.sco.panels := by simp [State.loadedRecords]
  unfold State.loadedState State.updateCap State.panel
  cases p <;> simp only [State.setPmg_sco, hs, State.setSco_sco, Pair.get, PanelCtl.capTo]

/-- The cap in force hangs on the Sampler and the Power Manager alone. -/
theorem OnlyMessages.emissionCap {s t : State} (h : OnlyMessages s t) : t.emissionCap = s.emissionCap := by
  unfold State.emissionCap State.presenceCap
  rw [h.smp, h.pmg]

theorem OnlyMessages.summary {s t : State} (h : OnlyMessages s t) : t.mge.summary = s.mge.summary := by
  rw [h.mge]

theorem Lnk.tried_eq {l : Lnk} {osc : Nat} (h : l.state = .down ∧ l.backoff = none ∧ l.loaded = true ∧ l.d0Signal = true) :
    l.tried osc = { l with
      state := .train
      limit := some (osc + ms 100)
      heldWord := none
      sentRequest := l.ownRequest
      sentUser := l.ownUser
      u0 := .abilityWord ⟨true, true, 4, true, l.ownRequest, l.ownUser⟩ (osc + 192) } := if_pos h

theorem Aud.load_portStart (a : Aud) (osc : Nat) : (a.load osc).portStart = some (a.portStart.getD osc) := by
  unfold Aud.load
  split
  · rename_i h
    rw [h]
    rfl
  · rename_i h
    rw [h]
    rfl

/-- Settles O9, from what a load's end makes of each block. -/
theorem storeLoadEndHandsOver : Obligations.StoreLoadEndHandsOver := by
  intro s ends hp ho schedule wear power trains
  refine ⟨_, exec_storeLoadEnd hp ho, ?_⟩
  have hm := (s.advanceTo ends).endLoad_only
  have hl : _ = (s.lnk.load s.cst).tried (max s.osc ends) := (s.advanceTo ends).endLoad_lnk
  generalize (s.advanceTo ends).endLoad = t at hm hl
  have hosc : t.osc = max s.osc ends := hm.osc.trans ((s.advanceTo ends).loadedState_osc)
  obtain ⟨hta, hfr, hmg⟩ := (s.advanceTo ends).loadedState_same
  have hcs : t.cst = s.cst.endLoad := hm.cst.trans ((s.advanceTo ends).loadedState_cst)
  have hcf : t.cfl = s.cfl.load s.cst := hm.cfl.trans ((s.advanceTo ends).loadedState_cfl)
  have hpm : t.pmg = s.pmg.load s.cst := hm.pmg.trans ((s.advanceTo ends).loadedState_pmg)
  have hsm : t.smp = s.smp.load s.cst t.osc := by
    rw [hosc]
    exact hm.smp.trans ((s.advanceTo ends).loadedState_smp)
  have hso : t.sco = (s.advanceTo ends).loadedState.sco := hm.sco
  have hcap : t.emissionCap = (s.advanceTo ends).loadedState.emissionCap := hm.emissionCap
  refine ⟨hosc, hm.tas.trans hta, ?_, ?_, ?_, ?_, ?_, ?_, ?_, hm.ori.trans ((s.advanceTo ends).loadedState_ori), ?_, fun p => ?_,
    hpm.trans (Pmg.load_eq _ _), fun i => ?_, ?_, fun htr => ?_, fun htr => ?_, ?_, hm.fri.trans hfr, ?_⟩
  · rw [hcs, Cst.endLoad]
  · rw [hcs, Cst.endLoad]
  · rw [hcs, Cst.endLoad]
  · rw [hcs, Cst.endLoad]
  · rw [hcs, Cst.endLoad]
  · rw [hcs, Cst.endLoad]
  · exact hsm.trans (Smp.load_eq _ _ _)
  · rw [hso]
    exact (s.advanceTo ends).loadedState_geometry
  · rw [hcap, State.panel, hso]
    exact (s.advanceTo ends).loadedState_panel p
  · rw [hcf]
    simp [Cfl.load]
  · rw [hcf]
    rfl
  · obtain ⟨hd, hb, hs⟩ := htr
    rw [hl, hosc, Lnk.tried_eq (l := s.lnk.load s.cst) ⟨hd, hb, rfl, hs⟩, Lnk.load]
  · rw [hl, Lnk.tried, if_neg fun ⟨hd, hb, _, hs⟩ => htr ⟨hd, hb, hs⟩, Lnk.load]
  · rw [hm.aud, hosc]
    exact (congrArg Aud.portStart (State.loadedState_aud (s.advanceTo ends))).trans (Aud.load_portStart _ _)
  · exact hm.summary.trans (congrArg Mge.summary hmg)

end Sys2Proof.Machine
end

section
/-! The store's pages, records and winners, and what each owner takes of its record. -/

namespace Sys2Proof.Machine

/-! ## Pages and their records -/

/-- The bytes of a page, one by one. -/
def Cst.byteAt (c : Cst) (p : Fin 8) (n : Nat) : Byte := storeRead c.array (p.val * 1024 + n)

theorem pageBytes_eq (c : Cst) (p : Fin 8) : pageBytes c.array p.val = (List.range 1024).map (c.byteAt p) := rfl

theorem take_map_range (f : Nat → Byte) : ((List.range 1024).map f).take 1022 = (List.range 1022).map f := by
  rw [← List.map_take, List.take_range]
  rfl

theorem field_map_range (f : Nat → Byte) : field ((List.range 1024).map f) 1022 2 =
    (f 1022).toNat + 256 * (f 1023).toNat := by
  rw [field_two (by simp)]
  simp

theorem Cst.pageValid_iff (c : Cst) (p : Fin 8) : c.pageValid p = true ↔
    ((List.range 1022).map fun n => (c.byteAt p n).toNat).sum % 65536 =
        (c.byteAt p 1022).toNat + 256 * (c.byteAt p 1023).toNat ∧
      ∃ n < 1024, c.byteAt p n ≠ 0xFF := by
  unfold Cst.pageValid bytesValid byteSum
  rw [pageBytes_eq, take_map_range, field_map_range, List.map_map, Bool.and_eq_true, decide_eq_true_eq]
  simp only [List.any_map, List.any_eq_true, List.mem_range, Function.comp_def, decide_eq_true_eq]
  rfl

/-- The last record of a type stands before records of other types alone. -/
theorem Cst.lastIn_of_split {c : Cst} {p : Fin 8} {ty : RecordType} {before after : List StoreRecord} {r : StoreRecord}
    (hw : walkRecords 511 ((List.range 1022).map (c.byteAt p)) = before ++ r :: after) (hr : r.code = ty.code)
    (ha : ∀ x ∈ after, x.code ≠ ty.code) : c.lastIn p ty = some r.content := by
  have hn : after.filter (fun x => decide (x.code = ty.code)) = [] :=
    List.filter_eq_nil_iff.mpr fun x hx => by simpa using ha x hx
  unfold Cst.lastIn pageRecords
  rw [pageBytes_eq, take_map_range, hw, List.filter_append, List.filter_cons_of_pos (by simpa using hr), hn]
  simp

theorem walkRecords_cons (n : Nat) (t len : Byte) (rest : List Byte) : walkRecords (n + 1) (t :: len :: rest) =
    if t = 0xFF ∨ rest.length < len.toNat then []
    else ⟨t, rest.take len.toNat⟩ :: walkRecords n (rest.drop len.toNat) := by
  rw [walkRecords]
  by_cases ht : t = 0xFF
  · rw [if_pos ht, if_pos (.inl ht)]
  · rw [if_neg ht]
    by_cases hl : rest.length < len.toNat
    · rw [if_pos hl, if_pos (.inr hl)]
    · rw [if_neg hl, if_neg (by rintro (h | h); exacts [ht h, hl h])]

/-! ## The winning record -/

/-- The pages, highest first. -/
def pagesDown : List (Fin 8) := [7, 6, 5, 4, 3, 2, 1, 0]

theorem pagesDown_mem (p : Fin 8) : p ∈ pagesDown := by fin_cases p <;> decide

theorem pagesDown_sorted : pagesDown.Pairwise (· > ·) := by decide

/-- What a page offers of a type. -/
def Cst.offer (c : Cst) (t : RecordType) (p : Fin 8) : Option (Fin 8 × List Byte) :=
  if c.pageValid p then (c.lastIn p t).map fun content => (p, content) else none

theorem Cst.winner_eq (c : Cst) (t : RecordType) : c.winner t = pagesDown.findSome? (c.offer t) := rfl

theorem Cst.offer_valid {c : Cst} {p : Fin 8} (hv : c.pageValid p = true) (t : RecordType) :
    c.offer t p = (c.lastIn p t).map fun content => (p, content) := if_pos hv

theorem Cst.offer_invalid {c : Cst} {p : Fin 8} (hv : c.pageValid p = false) (t : RecordType) : c.offer t p = none :=
  if_neg (Bool.eq_false_iff.mp hv)

theorem Cst.offer_some {c : Cst} {t : RecordType} {p q : Fin 8} {r : List Byte} (h : c.offer t p = some (q, r)) :
    p = q ∧ c.pageValid p = true ∧ c.lastIn p t = some r := by
  cases hv : c.pageValid p with
  | false =>
    rw [Cst.offer_invalid hv] at h
    cases h
  | true =>
    rw [Cst.offer_valid hv, Option.map_eq_some_iff] at h
    obtain ⟨x, hx, e⟩ := h
    cases e
    exact ⟨rfl, rfl, hx⟩

theorem Cst.offer_none {c : Cst} {t : RecordType} {p : Fin 8} (h : c.offer t p = none) (hv : c.pageValid p = true) :
    c.lastIn p t = none := Option.map_eq_none_iff.mp ((Cst.offer_valid hv t).symm.trans h)

/-- The winner is the last record of the highest valid page that holds the type. -/
theorem Cst.winner_some {c : Cst} {t : RecordType} {p : Fin 8} {r : List Byte} (h : c.winner t = some (p, r)) :
    c.pageValid p = true ∧ c.lastIn p t = some r ∧
      ∀ q : Fin 8, p < q → c.pageValid q = true → c.lastIn q t = none := by
  rw [Cst.winner_eq, List.findSome?_eq_some_iff] at h
  obtain ⟨l, a, l', hl, ha, hn⟩ := h
  obtain ⟨rfl, hv, hr⟩ := Cst.offer_some ha
  refine ⟨hv, hr, fun q hq hqv => Cst.offer_none (hn q ?_) hqv⟩
  have hs := pagesDown_sorted
  have hm := pagesDown_mem q
  rw [hl, List.pairwise_append] at hs
  rw [hl, List.mem_append, List.mem_cons] at hm
  obtain ⟨-, hs, -⟩ := hs
  rcases hm with hm | rfl | hm
  · exact hm
  · exact absurd hq (lt_irrefl _)
  · exact absurd ((List.pairwise_cons.mp hs).1 q hm) (not_lt_of_gt hq)

theorem Cst.winner_none {c : Cst} {t : RecordType} (h : c.winner t = none) (q : Fin 8) (hv : c.pageValid q = true) :
    c.lastIn q t = none := by
  rw [Cst.winner_eq, List.findSome?_eq_none_iff] at h
  exact Cst.offer_none (h q (pagesDown_mem q)) hv

theorem Cst.winner_of_invalid {c : Cst} (h : ∀ p, c.pageValid p = false) (t : RecordType) : c.winner t = none := by
  rw [Cst.winner_eq, List.findSome?_eq_none_iff]
  intro q _
  exact Cst.offer_invalid (h q) t

theorem Cst.taken_winner {α : Type} {c : Cst} {t : RecordType} {p : Fin 8} {r : List Byte} (h : c.winner t = some (p, r))
    (judge : List Byte → Option α) (d : α) : c.taken t judge d = (judge r).getD d ∧
      c.mapEntry t judge = ⟨some p.val, (judge r).isSome⟩ := by
  unfold Cst.taken Cst.mapEntry
  rw [h]
  exact ⟨rfl, rfl⟩

theorem Cst.taken_default {α : Type} {c : Cst} {t : RecordType} (h : c.winner t = none) (judge : List Byte → Option α)
    (d : α) : c.taken t judge d = d ∧ c.mapEntry t judge = ⟨none, false⟩ := by
  unfold Cst.taken Cst.mapEntry
  rw [h]
  exact ⟨rfl, rfl⟩

theorem Cst.boundaryLoaded_none {c : Cst} (h : c.pageValid 0 = false ∨ c.lastIn 0 .ident = none) :
    c.boundaryLoaded = 0 := by
  unfold Cst.boundaryLoaded
  rcases h with h | h
  · rw [h]
    rfl
  · rw [h]
    exact ite_self _

theorem Cst.boundaryLoaded_some {c : Cst} {r : List Byte} (hv : c.pageValid 0 = true) (h : c.lastIn 0 .ident = some r) :
    c.boundaryLoaded = if r.length = 5 then min 8 (field r 4 1) else 0 := by
  unfold Cst.boundaryLoaded
  rw [if_pos hv, h]
  rfl

/-! ## What the owners take -/

theorem takeSensorRecord_get {r : List Byte} (h : r.length = 32) : ∃ m, takeSensorRecord r = some m ∧
    ∀ c : Channel, m.get c = sensorEntry r c.code := by
  refine ⟨_, if_pos h, fun c => ?_⟩
  cases c <;> rfl

theorem sensorEntry_eq (r : List Byte) (i : Nat) : sensorEntry r i =
    if 8192 ≤ field r (4 * i + 2) 2 ∧ field r (4 * i + 2) 2 ≤ 32767
    then ⟨toSigned16 (field r (4 * i) 2), field r (4 * i + 2) 2⟩ else ⟨0, 16384⟩ := by
  unfold sensorEntry gainOk
  simp only [Bool.and_eq_true, decide_eq_true_eq]
  rfl

theorem rateChannelOfCode_iff (n : Nat) (c : RateChannel) : rateChannelOfCode n = some c ↔ n = c.channel.code := by
  constructor
  · intro h
    unfold rateChannelOfCode at h
    split at h <;> cases h <;> rfl
  · rintro rfl
    cases c <;> rfl

theorem axisEntry_iff (a b : Nat) (x : AxisSource) : axisEntry a b = some x ↔
    a = x.source.channel.code ∧ b = if x.negative then 0xFF else 0x01 := by
  unfold axisEntry
  rw [Option.bind_eq_some_iff]
  simp only [rateChannelOfCode_iff]
  constructor
  · rintro ⟨c, hc, h⟩
    split at h
    · cases h
      exact ⟨hc, ‹_›⟩
    · split at h
      · cases h
        exact ⟨hc, ‹_›⟩
      · cases h
  · rintro ⟨ha, hb⟩
    refine ⟨x.source, ha, ?_⟩
    obtain ⟨c, n⟩ := x
    cases n
    · have hb : b = 1 := hb
      rw [if_pos hb]
    · have hb : b = 255 := hb
      rw [if_neg (by omega), if_pos hb]

theorem takeAxisRecord_iff (r : List Byte) (m : AxisMap) : takeAxisRecord r = some m ↔ r.length = 6 ∧
    (∀ x ∈ [(0, m.yaw), (2, m.pitch), (4, m.roll)], field r x.1 1 = x.2.source.channel.code ∧
      field r (x.1 + 1) 1 = if x.2.negative then 0xFF else 0x01) ∧
    m.yaw.source ≠ m.pitch.source ∧ m.yaw.source ≠ m.roll.source ∧ m.pitch.source ≠ m.roll.source := by
  have hx : (∀ x ∈ [(0, m.yaw), (2, m.pitch), (4, m.roll)], field r x.1 1 = x.2.source.channel.code ∧
      field r (x.1 + 1) 1 = if x.2.negative then 0xFF else 0x01) ↔
      axisEntry (field r 0 1) (field r 1 1) = some m.yaw ∧ axisEntry (field r 2 1) (field r 3 1) = some m.pitch ∧
        axisEntry (field r 4 1) (field r 5 1) = some m.roll := by
    simp only [axisEntry_iff, List.forall_mem_cons, List.not_mem_nil, false_imp_iff, implies_true, and_true]
  rw [hx]
  unfold takeAxisRecord ofLength
  constructor
  · intro h
    split at h
    · dsimp only at h
      split at h
      · rename_i y p l hy hp hl
        split at h
        · rename_i hd
          cases h
          exact ⟨‹_›, ⟨hy, hp, hl⟩, hd⟩
        · cases h
      · cases h
    · cases h
  · rintro ⟨hl, ⟨hy, hp, hr⟩, hd⟩
    rw [if_pos hl]
    dsimp only
    rw [hy, hp, hr]
    exact if_pos hd

theorem SampleRate.exact_iff (n : Nat) (q : SampleRate) : SampleRate.exact n = some q ↔ q.hz = n := by
  constructor
  · intro h
    unfold SampleRate.exact at h
    split at h <;> cases h <;> rfl
  · rintro rfl
    cases q <;> rfl

theorem throttleRow_iff (r : List Byte) (i : Nat) (x : ThrottleRow) : throttleRow r i = some x ↔
    x.emissionCap = field r (5 * i) 2 ∧ x.emissionCap ≤ 1023 ∧ x.minAttenuation = field r (5 * i + 2) 1 ∧
      x.maxRate.hz = field r (5 * i + 3) 2 := by
  unfold throttleRow
  constructor
  · intro h
    split at h
    · obtain ⟨q, hq, rfl⟩ := Option.map_eq_some_iff.mp h
      exact ⟨rfl, ‹_›, rfl, (SampleRate.exact_iff _ _).mp hq⟩
    · cases h
  · rintro ⟨hc, hle, ha, hr⟩
    rw [if_pos (hc ▸ hle), (SampleRate.exact_iff _ _).mpr hr, ← hc, ← ha]
    rfl

theorem vector4_eq {α : Type} (v : Vector α 4) : #v[v[0], v[1], v[2], v[3]] = v := by
  ext i hi
  interval_cases i <;> rfl

theorem rowsOrdered_iff (v : Vector ThrottleRow 4) : rowsOrdered v = true ↔ ∀ j k : Fin 4, j < k →
    v[k].emissionCap ≤ v[j].emissionCap ∧ v[j].minAttenuation ≤ v[k].minAttenuation ∧
      v[k].maxRate.hz ≤ v[j].maxRate.hz := by
  refine ⟨rowsOrdered_pairs, fun h => ?_⟩
  simp only [rowsOrdered, Bool.and_eq_true, ThrottleRow.before_iff]
  exact ⟨⟨h 0 1 (by decide), h 1 2 (by decide)⟩, h 2 3 (by decide)⟩

theorem takeThrottleRecord_iff (r : List Byte) (rows : Vector ThrottleRow 4) :
    takeThrottleRecord r = some rows ↔ r.length = 20 ∧ (∀ i : Fin 4, throttleRow r i.val = some rows[i]) ∧
      rowsOrdered rows = true := by
  unfold takeThrottleRecord ofLength
  constructor
  · intro h
    split at h
    · dsimp only at h
      split at h
      · rename_i a b c d ha hb hc hd
        split at h
        · cases h
          refine ⟨‹_›, fun i => ?_, ‹_›⟩
          fin_cases i
          exacts [ha, hb, hc, hd]
        · cases h
      · cases h
    · cases h
  · rintro ⟨hl, hr, ho⟩
    have h0 : throttleRow r 0 = some rows[0] := hr 0
    have h1 : throttleRow r 1 = some rows[1] := hr 1
    have h2 : throttleRow r 2 = some rows[2] := hr 2
    have h3 : throttleRow r 3 = some rows[3] := hr 3
    rw [if_pos hl]
    dsimp only
    rw [h0, h1, h2, h3]
    dsimp only
    rw [vector4_eq, if_pos ho]

theorem destinationOfCode_iff (n : Nat) (d : Destination) : destinationOfCode n = some d ↔ d.code = n := by
  constructor
  · intro h
    unfold destinationOfCode at h
    split at h <;> cases h <;> rfl
  · rintro rfl
    cases d <;> rfl

theorem filterEntryOf_iff (b : Bool) (v m d : Nat) (e : FilterEntry) : filterEntryOf b v m d = some e ↔
    e.enabled = b ∧ e.value.toNat = v ∧ e.mask.toNat = m ∧ e.dest.code = d ∧ e.hits = 0 := by
  unfold filterEntryOf
  constructor
  · intro h
    split at h
    · rename_i hr
      obtain ⟨q, hq, rfl⟩ := Option.map_eq_some_iff.mp h
      refine ⟨rfl, ?_, ?_, (destinationOfCode_iff _ _).mp hq, rfl⟩ <;> rw [BitVec.toNat_ofNat] <;> omega
    · cases h
  · rintro ⟨rfl, rfl, rfl, rfl, hh⟩
    rw [if_pos (by have := e.value.isLt; have := e.mask.isLt; omega), (destinationOfCode_iff _ _).mpr rfl]
    obtain ⟨en, va, ma, de, hi⟩ := e
    simp only [Option.map_some, BitVec.ofNat_toNat, BitVec.setWidth_eq]
    rw [show hi = 0 from hh]

theorem vector8_eq {α : Type} (v : Vector α 8) : #v[v[0], v[1], v[2], v[3], v[4], v[5], v[6], v[7]] = v := by
  ext i hi
  interval_cases i <;> rfl

theorem hasControl_iff (es : Vector FilterEntry 8) : hasControl es = true ↔
    ∃ i : Fin 8, es[i].enabled = true ∧ es[i].dest = .control := by
  unfold hasControl
  simp only [List.any_eq_true, Bool.and_eq_true, decide_eq_true_eq, Vector.mem_toList_iff, Vector.mem_iff_getElem]
  constructor
  · rintro ⟨_, ⟨i, hi, rfl⟩, h⟩
    exact ⟨⟨i, hi⟩, h⟩
  · rintro ⟨i, h⟩
    exact ⟨_, ⟨i.val, i.isLt, rfl⟩, h⟩

theorem takeFilterRecord_iff (r : List Byte) (es : Vector FilterEntry 8) :
    takeFilterRecord r = some es ↔ r.length = 48 ∧ (∀ i : Fin 8, filterEntryAt r i.val = some es[i]) ∧
      hasControl es = true := by
  unfold takeFilterRecord ofLength
  constructor
  · intro h
    split at h
    · dsimp only at h
      split at h
      · rename_i h0 h1 h2 h3 h4 h5 h6 h7
        split at h
        · cases h
          refine ⟨‹_›, fun i => ?_, ‹_›⟩
          fin_cases i
          exacts [h0, h1, h2, h3, h4, h5, h6, h7]
        · cases h
      · cases h
    · cases h
  · rintro ⟨hl, hr, ho⟩
    have h0 : filterEntryAt r 0 = some es[0] := hr 0
    have h1 : filterEntryAt r 1 = some es[1] := hr 1
    have h2 : filterEntryAt r 2 = some es[2] := hr 2
    have h3 : filterEntryAt r 3 = some es[3] := hr 3
    have h4 : filterEntryAt r 4 = some es[4] := hr 4
    have h5 : filterEntryAt r 5 = some es[5] := hr 5
    have h6 : filterEntryAt r 6 = some es[6] := hr 6
    have h7 : filterEntryAt r 7 = some es[7] := hr 7
    rw [if_pos hl]
    dsimp only
    rw [h0, h1, h2, h3, h4, h5, h6, h7]
    dsimp only
    rw [vector8_eq, if_pos ho]

theorem flagField_eq (r : List Byte) (k : Nat) : flagField r k = decide (field r k 1 ≠ 0) := by
  unfold flagField
  cases h : decide (field r k 1 = 0) <;> simp_all

theorem clampNat_eq (lo hi v : Nat) : clampNat lo hi v = max lo (min hi v) := rfl

theorem field_byte (r : List Byte) (k : Nat) : BitVec.ofNat 8 (field r k 1) = r.getD k 0 := by
  unfold field
  rw [List.getD_eq_getElem?_getD, ← List.head?_drop]
  cases r.drop k with
  | nil => rfl
  | cons b l => simp [leNat]

theorem windowLengthOf_eq (n : Nat) : windowLengthOf n =
    if n < 32 then 16 else if n < 64 then 32 else if n < 128 then 64 else 128 := by
  unfold windowLengthOf
  split_ifs <;> omega

theorem roundDown_hz (n : Nat) : (SampleRate.roundDown n).hz =
    if n < 250 then 100 else if n < 500 then 250 else if n < 1000 then 500 else 1000 := by
  unfold SampleRate.roundDown
  split_ifs <;> first | rfl | omega

theorem takePowerRecord_eq (r : List Byte) : takePowerRecord r = if r.length = 5 then
    some ⟨max 8 (min 80 (field r 0 1)), BitVec.ofNat 8 (field r 1 1), min (field r 2 2) 1500,
      if field r 4 1 < 32 then 16 else if field r 4 1 < 64 then 32 else if field r 4 1 < 128 then 64 else 128⟩
    else none := by
  unfold takePowerRecord ofLength
  rw [field_byte, ← windowLengthOf_eq]
  rfl

theorem takeScheduleRecord_some {r : List Byte} (h : 3 ≤ r.length) (hl : r.length = 3 + 3 * field r 2 1) :
    takeScheduleRecord r = some ⟨SampleRate.roundDown (field r 0 2),
      (slotListOf (field r 2 1) (r.drop 3)).getD Smp.defaultSlots⟩ := if_pos ⟨h, hl⟩

theorem takeScheduleRecord_none {r : List Byte} (h : r.length < 3 ∨ r.length ≠ 3 + 3 * field r 2 1) :
    takeScheduleRecord r = none := if_neg (by omega)

/-- Settles O10, by the laws of the pages, of the winner and of each owner's judgement. -/
theorem winningRecordIsLastInHighestPage : Obligations.WinningRecordIsLastInHighestPage := by
  refine ⟨fun c p ty => ⟨c.pageValid_iff p, fun before after r hw hr ha => Cst.lastIn_of_split hw hr ha⟩,
    walkRecords_cons, fun c ty α judge d => ⟨fun p r h => ?_, fun h => ?_, fun h => ?_⟩,
    fun c => ⟨Cst.boundaryLoaded_none, fun r => Cst.boundaryLoaded_some⟩, fun r => ?_⟩
  · obtain ⟨hv, hl, hq⟩ := Cst.winner_some h
    obtain ⟨ht, hm⟩ := Cst.taken_winner h judge d
    exact ⟨hv, hl, hq, hm, fun x hx => by rw [ht, hx]; rfl, fun hx => by rw [ht, hx]; rfl⟩
  · obtain ⟨ht, hm⟩ := Cst.taken_default h judge d
    exact ⟨Cst.winner_none h, hm, ht⟩
  · exact ⟨Cst.winner_of_invalid h ty, Cst.boundaryLoaded_none (.inl (h 0))⟩
  · refine ⟨rfl, fun h => if_neg h, fun h => ?_, takeAxisRecord_iff r, rfl, fun rows => ?_, fun es => ?_,
      takePowerRecord_eq r, takeScheduleRecord_none, fun h3 hl => ⟨_, takeScheduleRecord_some h3 hl, roundDown_hz _,
        fun l h => by simp only [h, Option.getD_some], fun h => by simp only [h, Option.getD_none]⟩, rfl⟩
    · obtain ⟨m, hm, hg⟩ := takeSensorRecord_get h
      exact ⟨m, hm, fun c => (hg c).trans (sensorEntry_eq r _)⟩
    · rw [takeThrottleRecord_iff, rowsOrdered_iff]
      simp only [throttleRow_iff]
    · rw [takeFilterRecord_iff, hasControl_iff]
      simp only [filterEntryAt, filterEntryOf_iff, flagField_eq]

end Sys2Proof.Machine
end

section
/-! The requests of the Calibration Store and the ends of its operations. -/

namespace Sys2Proof.Machine

/-! ## What taking a request from its queue leaves unchanged -/

section popRequest
variable (s : State)

@[simp] theorem State.popRequest_osc : s.popRequest.osc = s.osc := rfl
@[simp] theorem State.popRequest_freeIndex : s.popRequest.freeIndex = s.freeIndex := rfl
@[simp] theorem State.popRequest_tas : s.popRequest.tas = s.tas := rfl
@[simp] theorem State.popRequest_smp : s.popRequest.smp = s.smp := rfl
@[simp] theorem State.popRequest_ori : s.popRequest.ori = s.ori := rfl
@[simp] theorem State.popRequest_fri : s.popRequest.fri = s.fri := rfl
@[simp] theorem State.popRequest_sco : s.popRequest.sco = s.sco := rfl
@[simp] theorem State.popRequest_aud : s.popRequest.aud = s.aud := rfl
@[simp] theorem State.popRequest_pmg : s.popRequest.pmg = s.pmg := rfl
@[simp] theorem State.popRequest_lnk : s.popRequest.lnk = s.lnk := rfl
@[simp] theorem State.popRequest_cfl : s.popRequest.cfl = s.cfl := rfl
@[simp] theorem State.popRequest_rch : s.popRequest.rch = s.rch := rfl
@[simp] theorem State.popRequest_cst : s.popRequest.cst = s.cst := rfl
@[simp] theorem State.popRequest_panel (p : Panel) : s.popRequest.panel p = s.panel p := rfl

end popRequest

/-! ## Rows whose owner's state moves messages too -/

/-- An immediate row whose owner, beside its effect, sets summary bits or hands over reports. -/
theorem State.immediate_answers_moving {s x y : State} {k tag : Byte} {ps fields : List Byte} {st : Status}
    {owner : List Byte → State → Answer} (h : Stands s k tag ps) (ha : owner ps s.popRequest = ⟨st, fields, x⟩)
    (hx : SameSerial s x) (hy : OnlyMessages y x) :
    ∃ t, s.immediate k tag ps owner = .next t ∧ OnlyMessages y t ∧ Answered s t k tag st fields := by
  obtain ⟨t, ht, hm, hans⟩ := State.immediate_answers h ha hx
  exact ⟨t, ht, hy.trans hm, hans⟩

theorem State.long_answers_moving {s x y : State} {k tag : Byte} {ps fields : List Byte} {st : Status}
    {owner : List Byte → State → LongAnswer} (h : Stands s k tag ps)
    (ha : owner ps s.popRequest = .answered ⟨st, fields, x⟩) (hx : SameSerial s x) (hy : OnlyMessages y x) :
    ∃ t, s.long k tag ps owner = .next t ∧ OnlyMessages y t ∧ Answered s t k tag st fields := by
  obtain ⟨t, ht, hm, hans⟩ := State.long_answers h ha hx
  exact ⟨t, ht, hy.trans hm, hans⟩

/-! ## Refusals of the store -/

/-- What a refusal of the store leaves: it is counted, and STORE is set. -/
def State.storeRefused (s : State) : State :=
  (s.popRequest.setCst { s.cst with refusals := satInc s.cst.refusals }).withBits bitStore

theorem refuseStore_moves (s : State) (st : Status) :
    SameSerial s (s.popRequest.refuseStore st).state ∧ OnlyMessages s.storeRefused (s.popRequest.refuseStore st).state :=
  ⟨State.setSummary_serial (s.popRequest.setCst _) _, State.setSummary_only _ _⟩

theorem State.immediate_refusedStore {s : State} {k tag : Byte} {ps : List Byte} {st : Status}
    {owner : List Byte → State → Answer} (h : Stands s k tag ps)
    (ha : owner ps s.popRequest = s.popRequest.refuseStore st) :
    ∃ t, s.immediate k tag ps owner = .next t ∧ OnlyMessages s.storeRefused t ∧ Answered s t k tag st [] :=
  State.immediate_answers_moving h ha (refuseStore_moves s st).1 (refuseStore_moves s st).2

theorem State.long_refusedStore {s : State} {k tag : Byte} {ps : List Byte} {st : Status}
    {owner : List Byte → State → LongAnswer} (h : Stands s k tag ps)
    (ha : owner ps s.popRequest = .answered (s.popRequest.refuseStore st)) :
    ∃ t, s.long k tag ps owner = .next t ∧ OnlyMessages s.storeRefused t ∧ Answered s t k tag st [] :=
  State.long_answers_moving h ha (refuseStore_moves s st).1 (refuseStore_moves s st).2

theorem exec_erasePage (tag : Byte) (ps : List Byte) (s : State) :
    exec (.erasePage tag ps) s = s.long 0x78 tag ps erasePage := rfl
theorem exec_programStore (tag : Byte) (ps : List Byte) (s : State) :
    exec (.programStore tag ps) s = s.long 0x79 tag ps programStore := rfl
theorem exec_readStore (tag : Byte) (ps : List Byte) (s : State) :
    exec (.readStore tag ps) s = s.immediate 0x7A tag ps readStore := rfl
theorem exec_blankCheck (tag : Byte) (ps : List Byte) (s : State) :
    exec (.blankCheck tag ps) s = s.immediate 0x7B tag ps blankCheck := rfl
theorem exec_setProtectBoundary (tag : Byte) (ps : List Byte) (s : State) :
    exec (.setProtectBoundary tag ps) s = s.immediate 0x7C tag ps setProtectBoundary := rfl
theorem exec_readStoreMap (tag : Byte) (ps : List Byte) (s : State) :
    exec (.readStoreMap tag ps) s = s.immediate 0x7D tag ps readStoreMap := rfl

/-! ## The owners' checks, in order -/

section checks
variable {ps : List Byte} {s : State}

theorem erasePage_length (h : ps.length ≠ 1) : erasePage ps s = .answered (s.refuseStore .length) := if_pos h

theorem erasePage_range (hl : ps.length = 1) (h : 7 < field ps 0 1) :
    erasePage ps s = .answered (s.refuseStore .range) := (if_neg (not_not.mpr hl)).trans (if_pos h)

theorem erasePage_busy (hl : ps.length = 1) (hr : field ps 0 1 ≤ 7) (h : s.cst.op ≠ .idle) :
    erasePage ps s = .answered (s.refuseStore .busy) :=
  (if_neg (not_not.mpr hl)).trans ((if_neg (not_lt.mpr hr)).trans (if_pos h))

theorem erasePage_protected (hl : ps.length = 1) (hr : field ps 0 1 ≤ 7) (hi : s.cst.op = .idle)
    (h : field ps 0 1 < s.cst.boundary) : erasePage ps s = .answered (s.refuseStore .isProtected) :=
  (if_neg (not_not.mpr hl)).trans ((if_neg (not_lt.mpr hr)).trans ((if_neg (not_not.mpr hi)).trans (if_pos h)))

theorem erasePage_starts (hl : ps.length = 1) (hr : field ps 0 1 ≤ 7) (hi : s.cst.op = .idle)
    (h : s.cst.boundary ≤ field ps 0 1) : erasePage ps s =
      .started .store (s.setCst { s.cst with op := .erasing (field ps 0 1) (s.osc + ms 20) }) :=
  (if_neg (not_not.mpr hl)).trans ((if_neg (not_lt.mpr hr)).trans ((if_neg (not_not.mpr hi)).trans
    (if_neg (not_lt.mpr h))))

theorem programStore_length (h : ps.length ≠ 4 + field ps 3 1) :
    programStore ps s = .answered (s.refuseStore .length) := if_pos h

theorem programStore_range (hl : ps.length = 4 + field ps 3 1)
    (h : 7 < field ps 0 1 ∨ field ps 3 1 = 0 ∨ 64 < field ps 3 1 ∨ 1024 < field ps 1 2 + field ps 3 1) :
    programStore ps s = .answered (s.refuseStore .range) := (if_neg (not_not.mpr hl)).trans (if_pos h)

/-- The checks of a program after its length and its range. -/
theorem programStore_inRange (hl : ps.length = 4 + field ps 3 1) (hp : field ps 0 1 ≤ 7) (h1 : 1 ≤ field ps 3 1)
    (h64 : field ps 3 1 ≤ 64) (ho : field ps 1 2 + field ps 3 1 ≤ 1024) : programStore ps s =
      if s.cst.op ≠ .idle then .answered (s.refuseStore .busy)
      else if field ps 0 1 < s.cst.boundary then .answered (s.refuseStore .isProtected)
      else if targetBlank s.cst.array (field ps 0 1) (field ps 1 2) (field ps 3 1) then
        .started .store (s.setCst { s.cst with
          op := .programming (field ps 0 1) (field ps 1 2) (ps.drop 4) (s.osc + ms 1) })
      else .answered (s.refuseStore .notBlank) :=
  (if_neg (not_not.mpr hl)).trans (if_neg (by unfold pageSize; omega))

theorem targetBlank_iff (m : StoreMemory) (page offset count : Nat) : targetBlank m page offset count = true ↔
    ∀ n < count, storeRead m (page * 1024 + offset + n) = 0xFF := by
  simp only [targetBlank, storeBytes, List.all_map, List.all_eq_true, List.mem_range, Function.comp_def,
    decide_eq_true_eq]
  rfl

theorem readStore_length (h : ps.length ≠ 5) : readStore ps s = s.refuseStore .length := if_pos h

theorem readStore_range (hl : ps.length = 5)
    (h : 7 < field ps 0 1 ∨ field ps 3 2 = 0 ∨ 256 < field ps 3 2 ∨ 1024 < field ps 1 2 + field ps 3 2) :
    readStore ps s = s.refuseStore .range := (if_neg (not_not.mpr hl)).trans (if_pos h)

theorem readStore_inRange (hl : ps.length = 5) (hp : field ps 0 1 ≤ 7) (h1 : 1 ≤ field ps 3 2)
    (h256 : field ps 3 2 ≤ 256) (ho : field ps 1 2 + field ps 3 2 ≤ 1024) : readStore ps s =
      if s.cst.op ≠ .idle then s.refuseStore .busy
      else ⟨.done, pack8 (field ps 0 1) ++ pack16 (field ps 1 2) ++ pack16 (field ps 3 2) ++
        (List.range (field ps 3 2)).map fun n => storeRead s.cst.array (field ps 0 1 * 1024 + field ps 1 2 + n), s⟩ :=
  (if_neg (not_not.mpr hl)).trans (if_neg (by unfold pageSize; omega))

theorem blankCheck_length (h : ps.length ≠ 1) : blankCheck ps s = s.refuseStore .length := if_pos h

theorem blankCheck_range (hl : ps.length = 1) (h : 7 < field ps 0 1) : blankCheck ps s = s.refuseStore .range :=
  (if_neg (not_not.mpr hl)).trans (if_pos h)

theorem blankCheck_inRange (hl : ps.length = 1) (hr : field ps 0 1 ≤ 7) : blankCheck ps s =
    if s.cst.op ≠ .idle then s.refuseStore .busy
    else ⟨.done, pack8 (field ps 0 1) ++ packFlag (pageBlank s.cst.array (field ps 0 1)), s⟩ :=
  (if_neg (not_not.mpr hl)).trans (if_neg (not_lt.mpr hr))

theorem pageBlank_iff (m : StoreMemory) (page : Nat) : pageBlank m page = true ↔
    ∀ n < 1024, storeRead m (page * 1024 + n) = 0xFF := by
  simp only [pageBlank, pageBytes, storeBytes, List.all_map, List.all_eq_true, List.mem_range, Function.comp_def,
    decide_eq_true_eq]
  rfl

theorem setProtectBoundary_length (h : ps.length ≠ 1) : setProtectBoundary ps s = s.refuseStore .length := if_pos h

theorem setProtectBoundary_range (hl : ps.length = 1) (h : 8 < field ps 0 1) :
    setProtectBoundary ps s = s.refuseStore .range := (if_neg (not_not.mpr hl)).trans (if_pos h)

theorem setProtectBoundary_inRange (hl : ps.length = 1) (hr : field ps 0 1 ≤ 8) : setProtectBoundary ps s =
    if s.cst.op ≠ .idle then s.refuseStore .busy
    else if field ps 0 1 < s.cst.boundary then s.refuseStore .isProtected
    else ⟨.done, pack8 (field ps 0 1), s.setCst { s.cst with boundary := field ps 0 1 }⟩ :=
  (if_neg (not_not.mpr hl)).trans (if_neg (not_lt.mpr hr))

theorem readStoreMap_length (h : ps.length ≠ 1) : readStoreMap ps s = s.refuseStore .length := if_pos h

theorem readStoreMap_done (hl : ps.length = 1) : readStoreMap ps s =
    ⟨.done, s.cst.mapFields, s.setCst (if field ps 0 1 = 0 then s.cst
      else { s.cst with loads := 0, erases := 0, programs := 0, refusals := 0 })⟩ := by
  rw [readStoreMap, if_neg (not_not.mpr hl), flagField_eq]
  by_cases h : field ps 0 1 = 0
  · simp [h]
  · simp [h, Cst.clearCounters]

end checks

/-- Settles O54, check by check in the order of each request. -/
theorem storeRequestsChecked : Obligations.StoreRequestsChecked := by
  intro tag ps s page offset refusedBy starts
  refine ⟨fun h => ?_, fun h => ?_, fun h => ?_, fun h => ?_, fun h => ?_, fun h => ?_⟩
  · simp only [refusedBy, starts, exec_erasePage]
    exact ⟨fun hl => State.long_refusedStore h (erasePage_length hl),
      fun hl hr => State.long_refusedStore h (erasePage_range hl hr),
      fun hl hr => ⟨fun ho => State.long_refusedStore h (erasePage_busy hl hr ho),
        fun ho hb => State.long_refusedStore h (erasePage_protected hl hr ho hb),
        fun ho hb => State.long_starts h (erasePage_starts (s := s.popRequest) hl hr ho hb)⟩⟩
  · simp only [refusedBy, starts, exec_programStore]
    refine ⟨fun hl => State.long_refusedStore h (programStore_length hl),
      fun hl hr => State.long_refusedStore h (programStore_range hl hr), fun hl hp h1 h64 ho => ?_⟩
    have hc := programStore_inRange (s := s.popRequest) hl hp h1 h64 ho
    have hb := targetBlank_iff s.cst.array page offset (field ps 3 1)
    refine ⟨fun hi => State.long_refusedStore h (hc.trans (if_pos hi)), fun hi hp => State.long_refusedStore h
        (hc.trans ((if_neg (not_not.mpr hi)).trans (if_pos hp))), fun hi hp => ⟨fun ⟨n, hn, hne⟩ => ?_, fun hall => ?_⟩⟩
    · exact State.long_refusedStore h (hc.trans ((if_neg (not_not.mpr hi)).trans ((if_neg (not_lt.mpr hp)).trans
        (if_neg fun ht => hne (hb.mp ht n hn)))))
    · exact State.long_starts h (hc.trans ((if_neg (not_not.mpr hi)).trans ((if_neg (not_lt.mpr hp)).trans
        (if_pos (hb.mpr hall)))))
  · simp only [refusedBy, exec_readStore]
    refine ⟨fun hl => State.immediate_refusedStore h (readStore_length hl),
      fun hl hr => State.immediate_refusedStore h (readStore_range hl hr), fun hl hp h1 h256 ho => ?_⟩
    have hc := readStore_inRange (s := s.popRequest) hl hp h1 h256 ho
    exact ⟨fun hi => State.immediate_refusedStore h (hc.trans (if_pos hi)),
      fun hi => State.immediate_answers h (hc.trans (if_neg (not_not.mpr hi))) rfl⟩
  · simp only [refusedBy, exec_blankCheck]
    refine ⟨fun hl => State.immediate_refusedStore h (blankCheck_length hl),
      fun hl hr => State.immediate_refusedStore h (blankCheck_range hl hr), fun hl hp => ?_⟩
    have hc := blankCheck_inRange (s := s.popRequest) hl hp
    refine ⟨fun hi => State.immediate_refusedStore h (hc.trans (if_pos hi)), fun hi => ?_⟩
    obtain ⟨t, ht, hm, ha⟩ := State.immediate_answers h (hc.trans (if_neg (not_not.mpr hi))) rfl
    exact ⟨t, _, ht, hm, ha, pageBlank_iff _ _⟩
  · simp only [refusedBy, exec_setProtectBoundary]
    refine ⟨fun hl => State.immediate_refusedStore h (setProtectBoundary_length hl),
      fun hl hr => State.immediate_refusedStore h (setProtectBoundary_range hl hr), fun hl hp => ?_⟩
    have hc := setProtectBoundary_inRange (s := s.popRequest) hl hp
    exact ⟨fun hi => State.immediate_refusedStore h (hc.trans (if_pos hi)),
      fun hi hb => State.immediate_refusedStore h (hc.trans ((if_neg (not_not.mpr hi)).trans (if_pos hb))),
      fun hi hb => State.immediate_answers h
        (hc.trans ((if_neg (not_not.mpr hi)).trans (if_neg (not_lt.mpr hb)))) rfl⟩
  · simp only [refusedBy, exec_readStoreMap]
    exact ⟨fun hl => State.immediate_refusedStore h (readStoreMap_length hl),
      fun hl => State.immediate_answers h (readStoreMap_done (s := s.popRequest) hl) rfl⟩

/-! ## The ends of an erase and of a program -/

/-- The in-progress set is no message: what moves beside it moves with it changed too. -/
theorem OnlyMessages.setInProgress {s t : State} (h : OnlyMessages s t) (l : List InProgress) :
    OnlyMessages (s.setMge { s.mge with inProgress := l }) (t.setMge { t.mge with inProgress := l }) :=
  { h with
    mge := by
      show ({ t.mge with inProgress := l } : Mge) = _
      conv_lhs => rw [h.mge]
      rfl }

theorem OnlyMessages.inProgress {s t : State} (h : OnlyMessages s t) : t.mge.inProgress = s.mge.inProgress := by
  rw [h.mge]

/-- The requests in progress that an operation's end answers leave the set, in the state that the end has made. -/
theorem OnlyMessages.finish {s t : State} (h : OnlyMessages s t) {holds : InProgress → Bool} {l : List InProgress}
    (hl : (s.mge.inProgress.filter fun p => !holds p) = l) (st : Status) (fields : InProgress → State → List Byte) :
    OnlyMessages (s.setMge { s.mge with inProgress := l }) (t.finish holds st fields) := by
  have hf := t.finish_only holds st fields
  rw [h.inProgress, hl] at hf
  exact (h.setInProgress l).trans hf

/-- The store and STORE as an operation's end sets them, the requests in progress not yet looked at. -/
theorem endOp_sets (s : State) (c : Cst) : OnlyMessages
    ((s.setCst { c with op := c.nextOp s.osc, loadOwed := false }).withBits bitStore)
    ((s.setCst { c with op := c.nextOp s.osc, loadOwed := false }).setSummary bitStore) :=
  State.setSummary_only _ _

/-- The request that holds the store is answered at the operation's end. -/
theorem endOp_one {s : State} {k tag : Byte} (c : Cst) (f : List Byte) (h : s.mge.inProgress = [⟨k, tag, .store⟩]) :
    OnlyMessages (((s.setCst { c with op := c.nextOp s.osc, loadOwed := false }).setMge
      { s.mge with inProgress := [] }).withBits bitStore) (s.endOp c f) ∧ Answered s (s.endOp c f) k tag .done f := by
  have hs := endOp_sets s c
  have hip := hs.inProgress.trans h
  have hser : SameSerial s ((s.setCst { c with op := c.nextOp s.osc, loadOwed := false }).setSummary bitStore) :=
    State.setSummary_serial _ _
  have hm := hs.finish (holds := InProgress.holdsStore) (l := []) (by
    show (s.mge.inProgress.filter _) = []
    rw [h]
    rfl) .done fun _ _ => f
  have ha := State.finish_answered (holds := InProgress.holdsStore) .done (fun _ _ => f)
    (s := (s.setCst { c with op := c.nextOp s.osc, loadOwed := false }).setSummary bitStore) (p := ⟨k, tag, .store⟩)
    (by rw [hip]; rfl)
  refine ⟨hm, ?_⟩
  unfold Answered at ha ⊢
  rwa [hser] at ha

/-- With no request that holds the store nothing is answered. -/
theorem endOp_none {s : State} (c : Cst) (f : List Byte) (h : ∀ p ∈ s.mge.inProgress, p.resource ≠ .store) :
    OnlyMessages ((s.setCst { c with op := c.nextOp s.osc, loadOwed := false }).withBits bitStore) (s.endOp c f) ∧
      SameSerial s (s.endOp c f) := by
  have hs := endOp_sets s c
  have hn : s.endOp c f = (s.setCst { c with op := c.nextOp s.osc, loadOwed := false }).setSummary bitStore :=
    State.finish_none _ _ fun p hp => by
      rw [hs.inProgress] at hp
      simpa [InProgress.holdsStore] using h p hp
  rw [hn]
  exact ⟨hs, State.setSummary_serial _ _⟩

/-- Data written run by run reads back. -/
theorem storeRead_storeWriteAll : ∀ (d : List Byte) {m : StoreMemory} (a : Nat), a + d.length ≤ 8 * pageSize →
    storeWf m = true → ∀ n (h : n < d.length), storeRead (storeWriteAll m a d) (a + n) = d[n]
  | b :: d, m, a, ha, hw, 0, _ => by
    unfold storeWriteAll
    rw [storeRead_storeWriteAll_other _ _ _ _ (by simp)]
    exact storeRead_storeWrite_same _ _ hw
  | b :: d, m, a, ha, hw, n + 1, h => by
    simp only [List.length_cons] at ha h
    have := storeRead_storeWriteAll d (a + 1) (by omega) (storeWf_write a b (by omega) hw) n (by omega)
    unfold storeWriteAll
    rw [show a + (n + 1) = a + 1 + n by omega]
    exact this

/-- What is said of an operation's end, for the store `c` whose array the end has written. -/
theorem endOp_outcome {s : State} {k : Byte} {c : Cst} {m : StoreMemory} {e : Nat} {fs : List Byte}
    {stored : StoreMemory → Prop} (ho : c.loadOwed = s.cst.loadOwed) (hst : stored m) :
    let u := s.advanceTo e
    let d : Cst := { c with array := m }
    let after := fun (t : State) (left : List InProgress) => ((u.setCst { c with
        op := if s.cst.loadOwed then .loading (u.osc + ms 5) else .idle, loadOwed := false
        array := t.cst.array }).setMge { s.mge with inProgress := left }).withBits bitStore
    (∀ tag, s.mge.inProgress = [⟨k, tag, .store⟩] →
      OnlyMessages (after (u.endOp d fs) []) (u.endOp d fs) ∧ Answered s (u.endOp d fs) k tag .done fs ∧
        stored (u.endOp d fs).cst.array) ∧
    ((∀ p ∈ s.mge.inProgress, p.resource ≠ .store) →
      OnlyMessages (after (u.endOp d fs) s.mge.inProgress) (u.endOp d fs) ∧
        (u.endOp d fs).mge.nextSerial = s.mge.nextSerial ∧ stored (u.endOp d fs).cst.array) := by
  intro u d after
  have hc : ({ d with op := d.nextOp u.osc, loadOwed := false } : Cst) = { c with
      op := if s.cst.loadOwed then .loading (u.osc + ms 5) else .idle, loadOwed := false, array := m } := by
    rw [← ho]
    rfl
  constructor
  · intro tag h
    obtain ⟨hm, ha⟩ := endOp_one (s := u) d fs h
    have hx : (u.endOp d fs).cst.array = m := by
      rw [hm.cst]
      rfl
    rw [hc] at hm
    refine ⟨?_, ha, hx ▸ hst⟩
    simp only [after, hx]
    exact hm
  · intro h
    obtain ⟨hm, hs⟩ := endOp_none (s := u) d fs h
    have hx : (u.endOp d fs).cst.array = m := by
      rw [hm.cst]
      rfl
    rw [hc] at hm
    refine ⟨?_, hs, hx ▸ hst⟩
    simp only [after, hx]
    exact hm

theorem exec_eraseEnd {s : State} {page ends : Nat} (hp : s.powered = true) (ho : s.cst.op = .erasing page ends) :
    exec .eraseEnd s = .next ((s.advanceTo ends).endOp (s.cst.erased page) (pack8 page)) := by
  have he : exec .eraseEnd s = execEraseEnd s := rfl
  rw [he, execEraseEnd, State.live_powered hp]
  simp only [ho]

theorem exec_programEnd {s : State} {page offset ends : Nat} {data : List Byte} (hp : s.powered = true)
    (ho : s.cst.op = .programming page offset data ends) : exec .programEnd s = .next ((s.advanceTo ends).endOp
      (s.cst.programmed page offset data) (pack8 page ++ pack16 offset ++ pack8 data.length)) := by
  have he : exec .programEnd s = execProgramEnd s := rfl
  rw [he, execProgramEnd, State.live_powered hp]
  simp only [ho]

/-- Settles O55, by what an operation's end leaves and what it has written. -/
theorem storeOperationsEnd : Obligations.StoreOperationsEnd := by
  refine ⟨fun s p e hp ho => ?_, fun s p o d e hp hw ho hl => ?_⟩
  · obtain ⟨h1, h2⟩ := endOp_outcome (s := s) (k := 0x78) (c := { s.cst with erases := satInc s.cst.erases })
      (m := storeErase s.cst.array p.val) (e := e) (fs := pack8 p.val)
      (stored := fun m => ∀ a, storeRead m a = if a / 1024 = p.val then 0xFF else storeRead s.cst.array a)
      rfl fun a => storeRead_erase _ _ _
    exact ⟨fun tag h => ⟨_, exec_eraseEnd hp ho, h1 tag h⟩, fun h => ⟨_, exec_eraseEnd hp ho, h2 h⟩⟩
  · have h8 := p.isLt
    obtain ⟨h1, h2⟩ := endOp_outcome (s := s) (k := 0x79) (c := { s.cst with programs := satInc s.cst.programs })
      (m := storeWriteAll s.cst.array (p.val * pageSize + o) d) (e := e)
      (fs := pack8 p.val ++ pack16 o ++ pack8 d.length)
      (stored := fun m => (∀ n (h : n < d.length), storeRead m (p.val * 1024 + o + n) = d[n]) ∧
        ∀ a, a < p.val * 1024 + o ∨ p.val * 1024 + o + d.length ≤ a → storeRead m a = storeRead s.cst.array a)
      rfl ⟨storeRead_storeWriteAll d _ (by unfold pageSize; omega) hw,
        fun a ha => storeRead_storeWriteAll_other d _ _ _ ha⟩
    exact ⟨fun tag h => ⟨_, exec_programEnd hp ho, h1 tag h⟩, fun h => ⟨_, exec_programEnd hp ho, h2 h⟩⟩

end Sys2Proof.Machine
end

section
/-! Requests in general: the lengths of the status replies, requests with a wrong length or kind, and requests that
arrive with their row. -/

namespace Sys2Proof.Machine

/-! ## The lengths of the status replies -/

/-- Fields of one length each, one after another. -/
theorem length_flatten_map {α : Type} (f : α → List Byte) (n : Nat) (h : ∀ a, (f a).length = n) (l : List α) :
    ((l.map f).flatten).length = l.length * n := by
  induction l with
  | nil => simp
  | cons a l ih =>
    rw [List.map_cons, List.flatten_cons, List.length_append, ih, h, List.length_cons]
    rw [Nat.add_mul, Nat.one_mul, Nat.add_comm]

theorem poseFields_length (e : Option PoseEntry) : (poseFields e).length = 32 := by
  cases e <;> simp [poseFields]

theorem modeFields_length (m : Option DisplayMode) : (modeFields m).length = 9 := by
  cases m <;> simp [modeFields]

theorem FrameSlot.fields_length (f : FrameSlot) : f.fields.length = 5 := by
  unfold FrameSlot.fields
  split <;> simp

theorem TxSlot.fields_length (t : TxSlot) : t.fields.length = 2 := by
  cases t <;> simp [TxSlot.fields]

theorem PerClass.fields_length (p : PerClass Count) : p.fields.length = 8 := by
  simp [PerClass.fields]

theorem takeFrees_length (n : Nat) (s : State) : (s.takeFrees n).1.length = n := by
  induction n generalizing s with
  | zero => rfl
  | succ n ih => exact congrArg (· + 1) (ih _)

theorem partnerFields_length (s : State) : s.partnerFields.1.length = 7 := by
  unfold State.partnerFields
  split
  · simp
  · simp [takeFrees_length]

theorem MapEntry.fields_length (e : MapEntry) : e.fields.length = 2 := by
  simp [MapEntry.fields]

theorem FilterEntry.fields_length (e : FilterEntry) : e.fields.length = 6 := by
  simp [FilterEntry.fields]

theorem Lnk.headFields_length (l : Lnk) : l.headFields.length = 22 := by
  simp only [Lnk.headFields, Lnk.laneFields, List.length_append, pack8_length, packFlag_length]

theorem Lnk.tailFields_length (l : Lnk) (osc : Nat) : (l.tailFields osc).length = 29 := by
  simp only [Lnk.tailFields, List.length_append, List.length_cons, List.length_nil, pack8_length, pack16_length,
    packTime_length, length_flatten_map pack16 2 pack16_length, Vector.length_toList]

theorem powerFields_length (s : State) : s.powerFields.length = 52 := by
  unfold State.powerFields
  extract_lets p r
  simp only [List.length_append, pack8_length, packFlag_length, packCount_length, pack16_length, pack32_length]

/-- Settles O6, adding up the widths of the fields. -/
theorem statusReplyLengths : Obligations.StatusReplyLengths := by
  intro s
  refine ⟨?_, ?_, ?_, ?_, ?_, ?_, ?_, ?_, ?_, ?_, ?_, ?_⟩
  · simp [Tas.fields]
  · simp [State.orientationFields, poseFields_length, AxisSource.fields]
  · simp [modeFields_length, Eye.fields, FrameSlot.fields_length, PictureCounters.fields]
  · simp [State.scanFields, Geometry.fields, PanelCtl.fields]
  · simp [State.audioFields, AudioCounters.fields]
  · exact powerFields_length s
  · simp only [Lnk.headFields_length, partnerFields_length, Lnk.tailFields_length, List.length_append]
  · simp [LinkCounters.fields]
  · simp [State.returnFields, PerClass.fields_length, length_flatten_map TxSlot.fields 2 TxSlot.fields_length]
  · simp [Mge.fields]
  · simp only [Cst.mapFields, List.length_append, MapEntry.fields_length, length_flatten_map packFlag 1 packFlag_length,
      pack8_length, packCount_length, Vector.length_toList]
  · simp [Cfl.fields, length_flatten_map (fun e : FilterEntry => e.fields ++ packCount e.hits) 8,
      FilterEntry.fields_length]

/-! ## Requests with a wrong length, or of no kind -/

/-- An immediate row whose owner refuses: nothing has changed but that the request is answered. -/
theorem State.immediate_refused {s : State} {k tag : Byte} {ps : List Byte} {st : Status}
    {owner : List Byte → State → Answer} (h : Stands s k tag ps)
    (ha : owner ps s.popRequest = s.popRequest.refuse st) :
    ∃ t, s.immediate k tag ps owner = .next t ∧ OnlyMessages s.popRequest t ∧ Answered s t k tag st [] :=
  State.immediate_answers h ha rfl

theorem State.long_refused {s : State} {k tag : Byte} {ps : List Byte} {st : Status}
    {owner : List Byte → State → LongAnswer} (h : Stands s k tag ps)
    (ha : owner ps s.popRequest = .answered (s.popRequest.refuse st)) :
    ∃ t, s.long k tag ps owner = .next t ∧ OnlyMessages s.popRequest t ∧ Answered s t k tag st [] :=
  State.long_answers h ha rfl

/-- A Function Clear's row is the dispatch of its request but where the request names another target. -/
theorem clearRow_eq {own : Nat} {ps : List Byte} (h : namesOther own ps = false) (s : State)
    (effect : State → State) (tag : Byte) :
    s.clearRow own effect tag ps = s.immediate 0x74 tag ps (functionClear own effect) := if_neg (by rw [h]; decide)

theorem namesOther_length {own : Nat} {ps : List Byte} (h : ps.length ≠ 1) : namesOther own ps = false := by
  simp [namesOther, h]

theorem clearRow_length {s : State} {tag : Byte} {ps : List Byte} (h : Stands s 0x74 tag ps) (hl : ps.length ≠ 1)
    (own : Nat) (effect : State → State) : ∃ t, s.clearRow own effect tag ps = .next t ∧ OnlyMessages s.popRequest t ∧
      Answered s t 0x74 tag .length [] := by
  rw [clearRow_eq (namesOther_length hl)]
  exact State.immediate_refused h (if_pos hl)

theorem panelsNamed_length {ps : List Byte} (h : ps.length ≠ 1) : panelsNamed ps = .error .length := if_pos h

theorem panelSetOfCode_none {n : Nat} (h : n = 0 ∨ 3 < n) : panelSetOfCode n = none := by
  unfold panelSetOfCode
  split <;> first | omega | rfl

theorem panelsNamed_range {b : Byte} (h : b = 0 ∨ 3 < b.toNat) : panelsNamed [b] = .error .range := by
  have hb : b.toNat = 0 ∨ 3 < b.toNat := h.imp_left fun e => by rw [e]; rfl
  unfold panelsNamed
  rw [if_neg (by simp), field_one, panelSetOfCode_none hb]

/-- The four rows of the panel requests. -/
inductive PanelRow : Byte → (Byte → List Byte → Instr) → Prop where
  | on : PanelRow 0x40 .panelsOn
  | off : PanelRow 0x41 .panelsOff
  | showing : PanelRow 0x42 .panelsShow
  | standby : PanelRow 0x43 .panelsStandby

/-- A panel request whose panel set is not one is answered with the status that says so. -/
theorem PanelRow.refused {k tag : Byte} {ps : List Byte} {row : Byte → List Byte → Instr} {st : Status} {s x : State}
    {fs : List Byte} (hr : PanelRow k row) (h : Stands s k tag ps) (he : panelsNamed ps = .error st)
    (ha : s.popRequest.panelAnswer st ps = ⟨st, fs, x⟩) (hx : x.mge.nextSerial = s.mge.nextSerial) :
    ∃ t, exec (row tag ps) s = .next t ∧ OnlyMessages x t ∧ Answered s t k tag st fs := by
  cases hr with
  | on => exact State.long_answers h (by rw [panelsOn, he]; exact congrArg _ ha) hx
  | off => exact State.long_answers h (by rw [panelsOff, he]; exact congrArg _ ha) hx
  | showing => exact State.immediate_answers h (by rw [panelsShow, he]; exact ha) hx
  | standby => exact State.immediate_answers h (by rw [panelsStandby, he]; exact ha) hx

/-- Settles O5: each owner looks at the length first, and the panel requests at the panel set. -/
theorem badRequestsAnswered : Obligations.BadRequestsAnswered := by
  refine ⟨fun p hp tag ps s h hl => ?_, fun p hp tag s => ?_, fun k tag ps s hk h => ?_⟩
  · simp only [List.mem_cons, List.not_mem_nil, or_false] at hp
    rcases hp with rfl | rfl | rfl | rfl | rfl | rfl | rfl | rfl | rfl | rfl | rfl | rfl | rfl | rfl | rfl | rfl |
      rfl | rfl | rfl | rfl | rfl | rfl | rfl | rfl | rfl | rfl | rfl | rfl | rfl | rfl | rfl | rfl | rfl | rfl |
      rfl | rfl | rfl | rfl | rfl | rfl | rfl | rfl | rfl | rfl | rfl
    any_goals exact State.immediate_refused h (if_pos hl)
    any_goals exact clearRow_length h hl _ _
    all_goals exact State.long_refused h (if_pos hl)
  · have hr : PanelRow p.1 p.2 := by
      simp only [List.mem_cons, List.not_mem_nil, or_false] at hp
      rcases hp with rfl | rfl | rfl | rfl
      exacts [.on, .off, .showing, .standby]
    refine ⟨fun h => ?_, fun b c ps h => ?_, fun b hb h => ?_⟩
    · obtain ⟨t, ht, hm, ha⟩ := hr.refused h (panelsNamed_length (by simp)) rfl rfl
      exact ⟨t, _, ht, hm, by simpa [State.panelFields] using ha⟩
    · simpa [State.panelFields] using hr.refused h (panelsNamed_length (by simp)) rfl rfl
    · simpa [State.panelFields] using hr.refused h (panelsNamed_range hb) rfl rfl
  · have hrow : exec (.requestUnknownKind k tag ps) s = s.immediate k tag ps fun _ t => t.refuse .unknown :=
      if_neg (by rw [hk]; decide)
    rw [hrow]
    exact State.immediate_refused h rfl

end Sys2Proof.Machine
end

section
/-! A request that arrives with its row. -/

namespace Sys2Proof.Machine

/-! ## Routing -/

/-- The entry matches the channel. -/
theorem FilterEntry.hits?_iff (e : FilterEntry) (c : BitVec 12) :
    e.hits? c = true ↔ e.enabled = true ∧ c &&& e.mask = e.value &&& e.mask := by
  simp [FilterEntry.hits?]

/-- The lowest entry that matches, and no lower one. -/
theorem Cfl.route_some {f : Cfl} {c : BitVec 12} {i : Fin 8} : f.route c = some i ↔
    f.entries[i].hits? c = true ∧ ∀ j : Fin 8, j < i → f.entries[j].hits? c = false := by
  have hs : ([0, 1, 2, 3, 4, 5, 6, 7] : List (Fin 8)).Pairwise (· < ·) := by decide
  have hm : ∀ j : Fin 8, j ∈ ([0, 1, 2, 3, 4, 5, 6, 7] : List (Fin 8)) := by decide
  unfold Cfl.route
  rw [List.find?_eq_some_iff_append]
  constructor
  · rintro ⟨hp, l, l', hl, hn⟩
    refine ⟨hp, fun j hj => ?_⟩
    have hjm := hm j
    rw [hl, List.pairwise_append] at hs
    rw [hl, List.mem_append, List.mem_cons] at hjm
    rcases hjm with hjm | rfl | hjm
    · simpa using hn j hjm
    · exact absurd hj (lt_irrefl _)
    · exact absurd ((List.pairwise_cons.mp hs.2.1).1 j hjm) (not_lt_of_gt hj)
  · rintro ⟨hp, hn⟩
    obtain ⟨l, l', hl⟩ := List.append_of_mem (hm i)
    refine ⟨hp, l, l', hl, fun j hj => ?_⟩
    rw [hl, List.pairwise_append] at hs
    simpa using hn j (hs.2.2 j hj i (List.mem_cons_self ..))

/-- The filter leads a channel to CONTROL by its lowest matching entry. -/
theorem Cfl.take_control {f : Cfl} {c : BitVec 12} : (f.take c).2 = .control ↔
    ∃ i : Fin 8, f.route c = some i ∧ f.entries[i].dest = .control := by
  unfold Cfl.take
  cases h : f.route c with
  | none => simp
  | some i => simp

theorem Cfl.take_some {f : Cfl} {c : BitVec 12} {i : Fin 8} (h : f.route c = some i) : f.take c =
    ({ f with entries := f.entries.set i { f.entries[i] with hits := satInc f.entries[i].hits } },
      f.entries[i].dest) := by
  unfold Cfl.take
  rw [h]

/-- Of `n` channels from `k` up, the lowest that leads to CONTROL, if one does. -/
theorem Cfl.controlFrom_spec (f : Cfl) : ∀ (n k : Nat), k + n ≤ 4096 →
    match f.controlFrom n (BitVec.ofNat 12 k) with
    | some d => (f.take d).2 = .control ∧
        ∀ e : BitVec 12, k ≤ e.toNat → e.toNat < d.toNat → (f.take e).2 ≠ .control
    | none => ∀ e : BitVec 12, k ≤ e.toNat → e.toNat < k + n → (f.take e).2 ≠ .control
  | 0, k, _ => fun e h1 h2 => absurd h2 (by omega)
  | n + 1, k, h => by
    have ih := Cfl.controlFrom_spec f n (k + 1) (by omega)
    have hk : (BitVec.ofNat 12 k).toNat = k := by rw [BitVec.toNat_ofNat]; omega
    unfold Cfl.controlFrom
    rw [show BitVec.ofNat 12 k + 1 = BitVec.ofNat 12 (k + 1) from (BitVec.ofNat_add k 1).symm]
    by_cases hc : (f.take (BitVec.ofNat 12 k)).2 = .control
    · rw [if_pos hc]
      exact ⟨hc, fun e h1 h2 => absurd h2 (by omega)⟩
    · rw [if_neg hc]
      have hne : ∀ e : BitVec 12, k ≤ e.toNat → (k + 1 ≤ e.toNat → (f.take e).2 ≠ .control) →
          (f.take e).2 ≠ .control := fun e h1 g => by
        rcases Nat.lt_or_ge k e.toNat with hlt | hge
        · exact g hlt
        · rwa [show e = BitVec.ofNat 12 k from BitVec.eq_of_toNat_eq (by omega)]
      split at ih
      · exact ⟨ih.1, fun e h1 h2 => hne e h1 fun h3 => ih.2 e h3 h2⟩
      · exact fun e h1 h2 => hne e h1 fun h3 => ih e h3 (by omega)

/-- The control channel is the lowest that leads to CONTROL. -/
theorem Cfl.controlChannel_some {f : Cfl} {c : BitVec 12} (h : (f.take c).2 = .control)
    (hl : ∀ d, d < c → (f.take d).2 ≠ .control) : f.controlChannel = some c := by
  have hs := f.controlFrom_spec 4096 0 (by omega)
  have hd : f.controlChannel = f.controlFrom 4096 (BitVec.ofNat 12 0) := rfl
  split at hs
  · rename_i d hf
    rw [hd, hf]
    congr 1
    rcases lt_trichotomy d.toNat c.toNat with hlt | heq | hgt
    · exact absurd hs.1 (hl d hlt)
    · exact BitVec.eq_of_toNat_eq heq
    · exact absurd h (hs.2 c (Nat.zero_le _) hgt)
  · exact absurd h (hs c (Nat.zero_le _) (by have := c.isLt; omega))

theorem Cfl.controlChannel_none {f : Cfl} (h : ∀ c, (f.take c).2 ≠ .control) : f.controlChannel = none := by
  have hs := f.controlFrom_spec 4096 0 (by omega)
  have hd : f.controlChannel = f.controlFrom 4096 (BitVec.ofNat 12 0) := rfl
  split at hs
  · exact absurd hs.1 (h _)
  · rwa [hd]

/-! ## A request's message -/

theorem Request.message_length (r : Request) : r.message.length = r.params.length + 6 := by
  simp [Request.message]
  omega

/-- A request's own message is judged well formed and joins the Request Queue. -/
theorem State.controlMessage_message {r : Request} (h : r.params.length + 6 ≤ 24576) (s : State) :
    s.controlMessage r.message = s.enqueue r := by
  have hl := r.message_length
  have h4 : field r.message 4 2 = r.params.length := by
    have : (r.message.drop 4).take 2 = pack16 r.params.length := by
      simp [Request.message, pack16, leBytes]
    rw [field, this]
    exact (leNat_leBytes 2 _).trans (Nat.mod_eq_of_lt (by omega))
  have h0 : field r.message 0 1 = 1 := rfl
  have hp : r.message.drop 6 = r.params := by simp [Request.message, pack16, leBytes]
  unfold State.controlMessage
  rw [if_neg (by omega), if_neg (by omega), hp]
  rfl

theorem State.enqueue_admitted {s : State} (h : s.mge.admitted < 8) (r : Request) : s.enqueue r =
    s.setMge { s.mge with requests := s.mge.requests ++ [r], admitted := s.mge.admitted + 1 } :=
  if_neg (Nat.not_le.mpr h)

theorem State.enqueue_overrun {s : State} (h : 8 ≤ s.mge.admitted) (r : Request) : s.enqueue r =
    (s.setMge { s.mge with overruns := satInc s.mge.overruns }).setSummary bitMsg := if_pos h

/-! ## The row of a request that does not stand at the head -/

theorem State.bring_closed {s : State} {r : Request} (hh : s.mge.requests.head? ≠ some r)
    (h : ¬(s.lnk.state = .up ∧ s.lnk.suspended = false ∧ r.params.length + 6 ≤ 24576) ∨
      ∀ c, (s.cfl.take c).2 ≠ .control) : s.bring r = s := by
  unfold State.bring
  rw [if_neg hh, r.message_length, maxPayload]
  split
  · rename_i ho
    rcases h with h | h
    · exact absurd ho h
    · rw [Cfl.controlChannel_none h]
  · rfl

theorem State.bring_open {s : State} {r : Request} {c : BitVec 12} (hh : s.mge.requests.head? ≠ some r)
    (ho : s.lnk.state = .up ∧ s.lnk.suspended = false ∧ r.params.length + 6 ≤ 24576)
    (hc : s.cfl.controlChannel = some c) : s.bring r = (s.routed c).enqueue r := by
  unfold State.bring
  rw [if_neg hh, r.message_length, maxPayload, if_pos ho, hc]
  exact State.controlMessage_message ho.2.2 _

/-- Where the request does not come to the head, the row does no more than bring it. -/
theorem State.dispatch_brought {s : State} {r : Request} (h : (s.bring r).mge.requests.head? ≠ some r)
    (owner : State → State) : s.dispatch r owner = s.bring r := if_neg h

/-- Both kinds of row of a request that does not come to the head. -/
theorem State.rows_brought {s t : State} {k tag : Byte} {ps : List Byte} (hp : s.powered = true)
    (hb : s.bring ⟨k, tag, ps⟩ = t) (h : t.mge.requests.head? ≠ some ⟨k, tag, ps⟩) :
    (∀ owner, s.immediate k tag ps owner = .next t) ∧ ∀ owner, s.long k tag ps owner = .next t := by
  subst hb
  unfold State.immediate State.long
  exact ⟨fun _ => by rw [State.live_powered hp, State.dispatch_brought h],
    fun _ => by rw [State.live_powered hp, State.dispatch_brought h]⟩

/-- Both kinds of row of a request that comes to the head do what they do where it stands there. -/
theorem State.rows_arrived {s a : State} {k tag : Byte} {ps : List Byte} (hp : s.powered = true)
    (hb : s.bring ⟨k, tag, ps⟩ = a) (h : Stands a k tag ps) :
    (∀ owner, s.immediate k tag ps owner = a.immediate k tag ps owner) ∧
      ∀ owner, s.long k tag ps owner = a.long k tag ps owner := by
  have hd : ∀ owner : State → State, s.dispatch ⟨k, tag, ps⟩ owner = a.dispatch ⟨k, tag, ps⟩ owner := fun owner => by
    rw [State.dispatch_of_stands h, State.dispatch, hb, if_pos h.2]
  unfold State.immediate State.long
  exact ⟨fun _ => by rw [State.live_powered hp, State.live_powered h.1, hd],
    fun _ => by rw [State.live_powered hp, State.live_powered h.1, hd]⟩

/-- Settles O4, from what bringing the request leaves. -/
theorem requestArrivesWithItsRow : Obligations.RequestArrivesWithItsRow := by
  intro k tag ps s hp hh hits leads open'
  have hleads : ∀ c i, leads c i ↔ s.cfl.route c = some i ∧ s.cfl.entries[i].dest = .control := fun c i => by
    simp only [leads, hits, ← FilterEntry.hits?_iff, Cfl.route_some, Bool.not_eq_true]
    exact ⟨fun ⟨h1, h2, h3⟩ => ⟨⟨h1, h3⟩, h2⟩, fun ⟨⟨h1, h3⟩, h2⟩ => ⟨h1, h2, h3⟩⟩
  have hctl : ∀ c, (s.cfl.take c).2 = .control ↔ ∃ i, leads c i := fun c => by
    simp only [Cfl.take_control, hleads]
  refine ⟨?_, fun hno => ?_⟩
  · intro c i ho hl hlow e g a
    have hcc : s.cfl.controlChannel = some c := Cfl.controlChannel_some ((hctl c).mpr ⟨i, hl⟩)
      fun d hd hx => by
        obtain ⟨j, hj⟩ := (hctl d).mp hx
        exact hlow d hd j hj
    have hg : s.routed c = g := by
      rw [State.routed, Cfl.take_some ((hleads c i).mp hl).1]
      rfl
    have hb := State.bring_open (r := ⟨k, tag, ps⟩) hh ho hcc
    rw [hg] at hb
    have ha : s.mge.admitted < 8 → s.bring ⟨k, tag, ps⟩ = a := fun h =>
      hb.trans (State.enqueue_admitted (s := g) h _)
    refine ⟨fun h he => ?_, fun h he => ?_, fun h => ?_⟩
    · have hst : Stands a k tag ps := ⟨hp, by
        show (s.mge.requests ++ [_]).head? = _
        rw [he]
        rfl⟩
      exact ⟨hst, State.rows_arrived hp (ha h) hst⟩
    · refine State.rows_brought hp (ha h) ?_
      show (s.mge.requests ++ [_]).head? ≠ _
      rwa [List.head?_append_of_ne_nil _ he]
    · have hb := hb.trans (State.enqueue_overrun (s := g) h _)
      have hm := State.setSummary_only (g.setMge { s.mge with overruns := satInc s.mge.overruns }) bitMsg
      exact ⟨_, hm, State.rows_brought hp hb (by rw [hm.requests]; exact hh)⟩
  · exact State.rows_brought hp (State.bring_closed hh (hno.imp_right fun h c hx => by
      obtain ⟨i, hi⟩ := (hctl c).mp hx
      exact h c i hi)) hh

end Sys2Proof.Machine
end

section
/-! Timed actions: Add Action (R10, R11), firing (R12 to R15), Group Trigger (R16), expiry (R13) and Time Marks
(R2 to R6). -/

namespace Sys2Proof.Machine

/-! ## What a delivered action leaves alone -/

/-- What no fired action touches: the Timebase, the requests waiting, the serials, the store, the Channel Filter and
the Power Manager. -/
structure Spares (s t : State) : Prop where
  tas : t.tas = s.tas
  requests : t.mge.requests = s.mge.requests
  serial : SameSerial s t
  cst : t.cst = s.cst
  cfl : t.cfl = s.cfl
  pmg : t.pmg = s.pmg

/-- What a target leaves alone beside its own effect: it forms no Action Done report either. -/
structure Delivers (s t : State) : Prop extends Spares s t where
  quiet : ∀ r ∈ t.outgoingReports, r.kind = .actionDone → r ∈ s.outgoingReports

theorem Spares.refl (s : State) : Spares s s := ⟨rfl, rfl, rfl, rfl, rfl, rfl⟩

theorem Spares.trans {s t u : State} (h : Spares s t) (k : Spares t u) : Spares s u :=
  ⟨k.tas.trans h.tas, k.requests.trans h.requests, Eq.trans k.serial h.serial, k.cst.trans h.cst, k.cfl.trans h.cfl,
    k.pmg.trans h.pmg⟩

theorem Delivers.refl (s : State) : Delivers s s := ⟨.refl s, fun _ hr _ => hr⟩

theorem Delivers.trans {s t u : State} (h : Delivers s t) (k : Delivers t u) : Delivers s u :=
  ⟨h.toSpares.trans k.toSpares, fun r hr hk => h.quiet r (k.quiet r hr hk) hk⟩

theorem Delivers.ite {s t u : State} {p : Prop} [Decidable p] (ht : p → Delivers s t) (hu : ¬ p → Delivers s u) :
    Delivers s (if p then t else u) := by
  split
  · exact ht ‹_›
  · exact hu ‹_›

theorem OnlyMessages.spares {s t : State} (h : OnlyMessages s t) (hs : SameSerial s t) : Spares s t :=
  ⟨h.tas, h.requests, hs, h.cst, h.cfl, h.pmg⟩

/-- A report that joins the Report Queue is the one new report on its way. -/
theorem State.mem_joined {s : State} {m : Mge} {x r : Report} (hm : m.reports = s.mge.makeRoom.reports ++ [x])
    (hr : r ∈ (s.setMge m).place.outgoingReports) : r = x ∨ r ∈ s.outgoingReports := by
  rw [mem_outgoingReports, State.place_items, mem_items] at hr
  rw [mem_outgoingReports, mem_items]
  rcases hr with hr | ⟨c, hr⟩
  · exact .inr (.inl hr)
  · obtain rfl : c = .report := by cases c <;> simp_all [State.queued]
    obtain ⟨y, hy, hyr⟩ := List.mem_map.mp hr
    cases hyr
    rw [State.setMge_mge, hm, List.mem_append, List.mem_singleton] at hy
    rcases hy with hy | hy
    · refine .inr (.inr ⟨.report, List.mem_map.mpr ⟨r, ?_, rfl⟩⟩)
      unfold Mge.makeRoom at hy
      split at hy
      · exact hy
      · exact List.mem_of_mem_tail hy
    · exact .inl hy

theorem Delivers.reportIf (s : State) (b : Bool) {k : ReportKind} (f : List Byte) (hk : k ≠ .actionDone) :
    Delivers s (s.reportIf b k f) := by
  refine ⟨(s.reportIf_only b k f).spares (s.reportIf_serial b k f), fun r hr ha => ?_⟩
  unfold State.reportIf at hr
  split at hr
  · rcases State.mem_joined rfl hr with rfl | hr
    · exact absurd ha hk
    · exact hr
  · exact hr

theorem Delivers.setSummary (s : State) (bits : BitVec 8) : Delivers s (s.setSummary bits) := by
  refine ⟨?_, fun r hr ha => ?_⟩
  · have h := s.setSummary_only bits
    exact ⟨h.tas, h.requests, s.setSummary_serial bits, h.cst, h.cfl, h.pmg⟩
  · unfold State.setSummary at hr
    simp only at hr
    split at hr
    · rcases State.mem_joined (s := s.withBits bits) rfl hr with rfl | hr
      · cases ha
      · exact hr
    · exact hr

/-- Blocks that a delivery may change, none of which holds a report. -/
theorem Delivers.setSco (s : State) (b : Sco) : Delivers s (s.setSco b) := ⟨⟨rfl, rfl, rfl, rfl, rfl, rfl⟩, fun _ h _ => h⟩
theorem Delivers.setFri (s : State) (b : Fri) : Delivers s (s.setFri b) := ⟨⟨rfl, rfl, rfl, rfl, rfl, rfl⟩, fun _ h _ => h⟩
theorem Delivers.setSmp (s : State) (b : Smp) : Delivers s (s.setSmp b) := ⟨⟨rfl, rfl, rfl, rfl, rfl, rfl⟩, fun _ h _ => h⟩
theorem Delivers.setOri (s : State) (b : Ori) : Delivers s (s.setOri b) := ⟨⟨rfl, rfl, rfl, rfl, rfl, rfl⟩, fun _ h _ => h⟩
theorem Delivers.setAud (s : State) (b : Aud) : Delivers s (s.setAud b) := ⟨⟨rfl, rfl, rfl, rfl, rfl, rfl⟩, fun _ h _ => h⟩
theorem Delivers.setFree (s : State) (n : Nat) : Delivers s (s.setFree n) := ⟨⟨rfl, rfl, rfl, rfl, rfl, rfl⟩, fun _ h _ => h⟩
theorem Delivers.setTurns (s : State) (q : List RefreshTurn) : Delivers s (s.setTurns q) :=
  ⟨⟨rfl, rfl, rfl, rfl, rfl, rfl⟩, fun _ h _ => h⟩

theorem Delivers.updatePanels (f : PanelCtl → PanelCtl) (names : List Panel) (s : State) :
    Delivers s (s.updatePanels names f) := by
  induction names generalizing s with
  | nil => exact .refl s
  | cons p l ih => exact (Delivers.setSco s _).trans (ih _)

/-! ## The work of a refresh start -/

theorem Delivers.showFrame (s : State) (p : Panel) (m : DisplayMode) (start : Time) (code : Nat) (frame : BitVec 16)
    (tag : Seq) (ns : Bool) : Delivers s (s.showFrame p m start code frame tag ns).1 := by
  have hshift : Delivers s (s.shiftFor m start tag ns).2 := by
    unfold State.shiftFor
    split
    · exact .refl s
    · exact .setOri s _
  refine hshift.trans (Delivers.ite (fun _ => ?_) fun _ => .setSco _ _)
  exact (Delivers.setSco _ _).trans (.setSummary _ _)

theorem Delivers.refreshPanel (s : State) (start : Time) (p : Panel) : Delivers s (s.refreshPanel start p).1 := by
  unfold State.refreshPanel
  split
  · have hs := Delivers.setFri s { s.fri with eyes := s.fri.eyes.set p (s.fri.eyes.get p).select.2 }
    simp only
    split
    · exact hs.trans (.showFrame _ _ _ _ _ _ _ _)
    · exact hs.trans (.showFrame _ _ _ _ _ _ _ _)
    · exact hs.trans (.setSco _ _)
  · exact .refl s

theorem Delivers.finishRefresh (s : State) : Delivers s s.finishRefresh := by
  unfold State.finishRefresh
  split
  · exact .refl s
  · exact ((Delivers.setSco s _).trans (.refreshPanel _ _ _)).trans (.reportIf _ _ _ (by decide))

theorem Delivers.beginRefresh (s : State) (p : Panel) (due : Nat) : Delivers s (s.beginRefresh p due) := by
  have hu := ((Delivers.setSco s { s.sco with
      latestRefresh := s.tas.now, refreshDue := some (due + us s.refreshPeriod) }).trans
      (.refreshPanel _ s.tas.now p))
  exact .ite (fun _ => hu.trans (.setSco _ _)) fun _ => (hu.trans (.setSco _ _)).trans (.finishRefresh _)

theorem Delivers.deliverRefresh (s : State) (due : Nat) : Delivers s (s.deliverRefresh due) := by
  unfold State.deliverRefresh
  have ht := Delivers.setTurns s s.turns.tail
  simp only
  split
  · exact (ht.trans (.beginRefresh _ _ _)).trans (.finishRefresh _)
  · exact ht.trans (.beginRefresh _ _ _)

theorem Delivers.settleRefresh (s : State) : Delivers s s.settleRefresh := by
  unfold State.settleRefresh
  have ht : Delivers s (if s.sco.anyShowing then s else s.setSco { s.sco with refreshDue := none }) :=
    .ite (fun _ => .refl s) fun _ => .setSco s _
  simp only
  split
  · exact ht
  · exact ht.trans (.ite (fun _ => .refl _) fun _ => .finishRefresh _)

/-! ## The targets, one by one -/

theorem Delivers.panelAnswer (s : State) (st : Status) (ps : List Byte) : Delivers s (s.panelAnswer st ps).state := by
  cases ps
  · exact .setFree s _
  · exact .refl s

theorem setDisplayMode_delivers (ps : List Byte) (s : State) : Delivers s (setDisplayMode ps s).state := by
  unfold setDisplayMode
  split
  · exact .refl s
  · split
    · exact .refl s
    · split
      · exact .refl s
      · exact .setFri s _

theorem setEmission_delivers (ps : List Byte) (s : State) : Delivers s (setEmission ps s).state := by
  unfold setEmission
  split
  · exact .refl s
  · split
    · exact .refl s
    · rename_i names _
      exact .updatePanels (fun c => { c with requested := min (field ps 1 2) 1023 }) names s

theorem panelsShow_delivers (ps : List Byte) (s : State) : Delivers s (panelsShow ps s).state := by
  unfold panelsShow
  split
  · exact .panelAnswer s _ ps
  · rename_i names _
    split
    · exact .panelAnswer s _ ps
    · refine (Delivers.updatePanels (fun c => { c with state := .showing, applied := 0, window := none }) names s).trans ?_
      exact (Delivers.ite (fun _ => .refl _) fun _ => .deliverRefresh _ _).trans (.panelAnswer _ _ _)

theorem panelsStandby_delivers (ps : List Byte) (s : State) : Delivers s (panelsStandby ps s).state := by
  unfold panelsStandby
  split
  · exact .panelAnswer s _ ps
  · split
    · exact .panelAnswer s _ ps
    · exact ((Delivers.updatePanels _ _ s).trans (.settleRefresh _)).trans (.panelAnswer _ _ _)

theorem setSamplingRate_delivers (ps : List Byte) (s : State) : Delivers s (setSamplingRate ps s).state := by
  unfold setSamplingRate
  split
  · exact .refl s
  · exact .setSmp s _

theorem setAttenuation_delivers (ps : List Byte) (s : State) : Delivers s (setAttenuation ps s).state := by
  unfold setAttenuation
  split
  · exact .refl s
  · exact .setAud s _

theorem startCapture_delivers (ps : List Byte) (s : State) : Delivers s (startCapture ps s).state := by
  unfold startCapture
  split
  · exact .refl s
  · split
    · exact .refl s
    · split
      · exact .refl s
      · exact .setAud s _

theorem stopCapture_delivers (ps : List Byte) (s : State) : Delivers s (stopCapture ps s).state := by
  unfold stopCapture
  split
  · exact .refl s
  · exact .setAud s _

/-- Whatever its kind, a delivered action spares the Timebase and the rest that `Spares` names, and reports nothing
as done. -/
theorem ActionKind.deliver_delivers (k : ActionKind) (ps : List Byte) (s : State) :
    Delivers s (k.deliver ps s).state := by
  cases k with
  | setDisplayMode => exact setDisplayMode_delivers ps s
  | setEmission => exact setEmission_delivers ps s
  | panelsShow => exact panelsShow_delivers ps s
  | panelsStandby => exact panelsStandby_delivers ps s
  | setSamplingRate => exact setSamplingRate_delivers ps s
  | setAttenuation => exact setAttenuation_delivers ps s
  | startCapture => exact startCapture_delivers ps s
  | stopCapture => exact stopCapture_delivers ps s
  | marker => exact .refl s

/-! ## Firing -/

theorem State.fire_only (s : State) (e : Action) (c : FireCause) (time : Time) :
    OnlyMessages (e.kind.deliver e.params s).state (s.fire e c time) := State.reportIf_only _ _ _ _

theorem State.fire_spares (s : State) (e : Action) (c : FireCause) (time : Time) : Spares s (s.fire e c time) :=
  (e.kind.deliver_delivers e.params s).toSpares.trans ((s.fire_only e c time).spares (State.reportIf_serial _ _ _ _))

theorem State.fire_silent {s : State} {e : Action} {c : FireCause} {time : Time}
    (h : (e.kind.deliver e.params s).state.mge.enables.actionDone = false) :
    s.fire e c time = (e.kind.deliver e.params s).state := by
  unfold State.fire
  simp only [h]
  rfl

theorem State.fire_reported {s : State} {e : Action} {c : FireCause} {time : Time}
    (h : (e.kind.deliver e.params s).state.mge.enables.actionDone = true) :
    Reported (s.fire e c time) .actionDone (actionDoneFields e (e.kind.deliver e.params s).status c time) := by
  unfold State.fire
  simp only [h]
  exact State.reportIf_reported _ _ _

theorem State.fireAll_cons (s : State) (e : Action) (es : List Action) (c : FireCause) (time : Time) :
    s.fireAll (e :: es) c time = ((s.removeAction e.id).fire e c time).fireAll es c time := rfl

/-- The entries fired leave the table, the others keep their order. -/
theorem State.fireAll_tas (es : List Action) (c : FireCause) (time : Time) (s : State) :
    (s.fireAll es c time).tas =
      { s.tas with table := s.tas.table.filter fun x => decide (∀ e ∈ es, x.id ≠ e.id) } := by
  induction es generalizing s with
  | nil => simp [State.fireAll]
  | cons e es ih =>
    rw [State.fireAll_cons, ih, (State.fire_spares _ e c time).tas]
    simp only [State.removeAction, State.setTas_tas, List.filter_filter]
    congr 1
    refine List.filter_congr fun x _ => ?_
    simp only [List.forall_mem_cons, ← Bool.decide_and]
    exact decide_eq_decide.mpr and_comm

/-- What the firings spare but the table. -/
theorem State.fireAll_spares (es : List Action) (c : FireCause) (time : Time) (s : State) :
    Spares (s.setTas (s.fireAll es c time).tas) (s.fireAll es c time) := by
  suffices h : ∀ s : State, (s.fireAll es c time).mge.requests = s.mge.requests ∧ SameSerial s (s.fireAll es c time) ∧
      (s.fireAll es c time).cst = s.cst ∧ (s.fireAll es c time).cfl = s.cfl ∧ (s.fireAll es c time).pmg = s.pmg by
    obtain ⟨hq, hs, hst, hf, hp⟩ := h s
    exact ⟨rfl, hq, hs, hst, hf, hp⟩
  intro s
  induction es generalizing s with
  | nil => exact ⟨rfl, rfl, rfl, rfl, rfl⟩
  | cons e es ih =>
    obtain ⟨hq, hs, hst, hf, hp⟩ := ih ((s.removeAction e.id).fire e c time)
    have hx := State.fire_spares (s.removeAction e.id) e c time
    rw [State.fireAll_cons]
    exact ⟨hq.trans hx.requests, Eq.trans hs hx.serial, hst.trans hx.cst, hf.trans hx.cfl, hp.trans hx.pmg⟩

/-- In a table whose ids differ, what is left after the entries of some kind fired is the entries not of that kind. -/
theorem table_without {l es : List Action} (h : (l.map Action.id).Nodup) (p : Action → Prop) [DecidablePred p]
    (hes : es = l.filter fun e => decide (p e)) :
    (l.filter fun x => decide (∀ e ∈ es, x.id ≠ e.id)) = l.filter fun x => decide (¬ p x) := by
  subst hes
  refine List.filter_congr fun x hx => decide_eq_decide.mpr ⟨fun hall hp => ?_, fun hp e he hid => ?_⟩
  · exact hall x (List.mem_filter.mpr ⟨hx, decide_eq_true hp⟩) rfl
  · obtain ⟨hel, hpe⟩ := List.mem_filter.mp he
    rw [List.inj_on_of_nodup_map h hx hel hid] at hp
    exact hp (of_decide_eq_true hpe)

/-! ## Add Action -/

theorem exec_addAction (tag : Byte) (ps : List Byte) (s : State) :
    exec (.addAction tag ps) s = s.immediate 0x11 tag ps addAction := rfl

/-- The checks of Add Action after its length: the kind, its own length, the trigger, the id and the room. -/
theorem State.newAction_of_kind {s : State} {ps : List Byte} {k : ActionKind} (h10 : 10 ≤ ps.length)
    (hk : ActionKind.ofCode (ps.getD 9 0) = some k) (hl : ps.length = 10 + k.paramLength) : s.newAction ps =
      match triggerOf (field ps 1 1) (field ps 2 6) (field ps 8 1) with
        | none => .error .range
        | some t =>
          if s.tas.table.any (fun e => decide (e.id = ps.headD 0)) then .error .inUse
          else if 16 ≤ s.tas.table.length then .error .full
          else .ok ⟨ps.headD 0, t, k, ps.drop 10⟩ := by
  unfold State.newAction
  rw [if_neg (by omega), hk]
  exact if_neg (not_not.mpr hl)

theorem State.newAction_short {s : State} {ps : List Byte} (h : ps.length < 10) : s.newAction ps = .error .length :=
  if_pos h

theorem State.newAction_noKind {s : State} {ps : List Byte} (h10 : 10 ≤ ps.length)
    (hk : ActionKind.ofCode (ps.getD 9 0) = none) : s.newAction ps = .error .range := by
  unfold State.newAction
  rw [if_neg (by omega), hk]

theorem State.newAction_kindLength {s : State} {ps : List Byte} {k : ActionKind} (h10 : 10 ≤ ps.length)
    (hk : ActionKind.ofCode (ps.getD 9 0) = some k) (hl : ps.length ≠ 10 + k.paramLength) :
    s.newAction ps = .error .length := by
  unfold State.newAction
  rw [if_neg (by omega), hk]
  exact if_pos hl

/-- A request that carries an id is answered with it. -/
theorem State.actionAnswer_id {s : State} {st : Status} {n : Nat} {ps : List Byte} (h : ps ≠ []) :
    s.actionAnswer st n ps = ⟨st, [ps.headD 0] ++ pack8 n ++ pack8 s.tas.table.length, s⟩ := by
  cases ps with
  | nil => exact absurd rfl h
  | cons b ps => rfl

theorem addAction_refused {ps : List Byte} {s : State} {st : Status} (h : s.newAction ps = .error st) :
    addAction ps s = s.actionAnswer st 2 ps := by
  unfold addAction
  rw [h]

theorem insertAction_length (a : Action) (l : List Action) : (insertAction a l).length = l.length + 1 := by
  have h := (insertAction_perm a l).length_eq
  simpa using h

/-- Settles O12, by whether the due time has come: the entry is stored at its place, or fired as it stands. -/
theorem addActionStoresOrFires : Obligations.AddActionStoresOrFires := by
  intro tag ps k tr s h h10 hk hl htr hid hroom
  have hne : ps ≠ [] := by
    rintro rfl
    exact absurd h10 (by simp)
  have hnew : s.popRequest.newAction ps = .ok ⟨ps.headD 0, tr, k, ps.drop 10⟩ := by
    rw [State.newAction_of_kind h10 hk hl, htr]
    exact (if_neg (by simpa using hid)).trans (if_neg (by simpa using hroom))
  rw [exec_addAction]
  constructor
  · intro hdue
    have hpass : s.popRequest.passed ⟨ps.headD 0, tr, k, ps.drop 10⟩ = false := by
      unfold State.passed
      cases hd : tr.due with
      | none => rfl
      | some d => exact decide_eq_false (not_le.mpr (hdue d hd))
    have ha : addAction ps s.popRequest = (s.popRequest.setTas { s.tas with
        table := insertAction ⟨ps.headD 0, tr, k, ps.drop 10⟩ s.tas.table }).actionAnswer .done 0 ps := by
      unfold addAction
      rw [hnew]
      simp only [hpass, Bool.false_eq_true, if_false, State.popRequest_tas]
    rw [State.actionAnswer_id hne, State.setTas_tas] at ha
    simp only [insertAction_length] at ha
    exact State.immediate_answers h ha rfl
  · intro d hd hpast
    have hpass : s.popRequest.passed ⟨ps.headD 0, tr, k, ps.drop 10⟩ = true := by
      unfold State.passed
      rw [hd]
      exact decide_eq_true hpast
    intro a
    let e : Action := ⟨ps.headD 0, tr, k, ps.drop 10⟩
    have hsp := State.fire_spares s.popRequest e .add s.tas.now
    have hdel := k.deliver_delivers (ps.drop 10) s.popRequest
    have ha : addAction ps s.popRequest = ⟨.done, [ps.headD 0] ++ pack8 1 ++ pack8 s.tas.table.length,
        s.popRequest.fire e .add s.tas.now⟩ := by
      unfold addAction
      rw [hnew]
      simp only [hpass, if_true]
      rw [State.actionAnswer_id hne]
      simp only [State.popRequest_tas, hsp.tas, e]
    obtain ⟨t, ht, hm, hans⟩ := State.immediate_answers h ha hsp.serial
    have hrep := fun r : Report => State.immediate_outgoingReports (r := r) h ha ht
    refine ⟨t, ht, (s.popRequest.fire_only e .add s.tas.now).trans hm, hm.tas.trans hsp.tas, ?_, fun hon => ?_, fun hoff r hr hk => ?_⟩
    · have hser : a.state.mge.nextSerial = s.mge.nextSerial := hdel.serial
      unfold Answered
      rw [hser]
      exact hans
    · exact (hrep _).mpr (State.fire_reported (e := e) hon)
    · have hr' := (hrep r).mp hr
      rw [State.fire_silent (e := e) hoff] at hr'
      exact hdel.quiet r hr' hk

/-- Settles O13, by the first check that fails. -/
theorem addActionRefusals : Obligations.AddActionRefusals := by
  constructor
  · intro tag s h
    rw [exec_addAction]
    have ha := addAction_refused (State.newAction_short (s := s.popRequest) (ps := []) (by simp))
    obtain ⟨t, ht, hm, hans⟩ := State.immediate_answers h ha rfl
    exact ⟨t, _, ht, hm, hans⟩
  · intro tag ps s h hne
    have refuse : ∀ st, s.popRequest.newAction ps = .error st → ∃ t, exec (.addAction tag ps) s = .next t ∧
        OnlyMessages s.popRequest t ∧
        Answered s t 0x11 tag st ([ps.headD 0] ++ pack8 2 ++ pack8 s.tas.table.length) := fun st he => by
      rw [exec_addAction]
      exact State.immediate_answers h ((addAction_refused he).trans (State.actionAnswer_id hne)) rfl
    refine ⟨fun hl => refuse _ (State.newAction_short hl), fun h10 hk => refuse _ (State.newAction_noKind h10 hk),
      fun k h10 hk => ⟨fun hl => refuse _ (State.newAction_kindLength h10 hk hl), fun hl =>
        ⟨fun htr => refuse _ ?_, fun htr => ?_⟩⟩⟩
    · rw [State.newAction_of_kind h10 hk hl, htr]
    · obtain ⟨tr, htr⟩ := Option.ne_none_iff_exists'.mp htr
      refine ⟨fun hin => refuse _ ?_, fun hout hfull => refuse _ ?_⟩
      · rw [State.newAction_of_kind h10 hk hl, htr]
        exact if_pos (by simpa using hin)
      · rw [State.newAction_of_kind h10 hk hl, htr]
        exact (if_neg (by simpa using hout)).trans (if_pos hfull)

/-! ## Group Trigger and delivery -/

theorem exec_groupTrigger (tag : Byte) (ps : List Byte) (s : State) :
    exec (.groupTrigger tag ps) s = s.immediate 0x14 tag ps groupTrigger := rfl

/-- The entries of a group, in table order. -/
def State.inGroup (s : State) (g : Nat) : List Action := s.tas.table.filter fun e => decide (e.trigger.group = some g)

theorem groupTrigger_fires {g : Byte} (h : g.toNat ≤ 7) (s : State) : groupTrigger [g] s =
    ⟨.done, pack8 g.toNat ++ pack8 (s.inGroup g.toNat).length, s.fireAll (s.inGroup g.toNat) .group s.tas.now⟩ := by
  unfold groupTrigger
  rw [if_neg (by simp), field_one, if_neg (not_lt.mpr h)]
  rfl

theorem groupTrigger_range {g : Byte} (h : 7 < g.toNat) (s : State) : groupTrigger [g] s = s.refuse .range := by
  unfold groupTrigger
  rw [if_neg (by simp), field_one, if_pos h]

/-- A group triggered: its entries fire, and the reply counts them. -/
theorem groupTrigger_answers {tag g : Byte} {s : State} (h : Stands s 0x14 tag [g]) (hg : g.toNat ≤ 7) :
    ∃ t, s.immediate 0x14 tag [g] groupTrigger = .next t ∧
      OnlyMessages (s.popRequest.fireAll (s.inGroup g.toNat) .group s.tas.now) t ∧
      Answered s t 0x14 tag .done (pack8 g.toNat ++ pack8 (s.inGroup g.toNat).length) ∧
      ∀ r, r ∈ t.outgoingReports ↔
        r ∈ (s.popRequest.fireAll (s.inGroup g.toNat) .group s.tas.now).outgoingReports := by
  have ha := groupTrigger_fires hg s.popRequest
  have hser : SameSerial s.popRequest (s.popRequest.fireAll (s.inGroup g.toNat) .group s.tas.now) :=
    (State.fireAll_spares _ _ _ _).serial
  obtain ⟨t, ht, hm, hans⟩ := State.immediate_answers h ha hser
  exact ⟨t, ht, hm, hans, fun r => State.immediate_outgoingReports h ha ht⟩

/-- The Marker is a report and nothing else. -/
theorem State.fire_marker {s : State} {e : Action} {c : FireCause} {time : Time} (hk : e.kind = .marker)
    (hon : s.mge.enables.actionDone = true) : OnlyMessages s (s.fire e c time) ∧
      (s.fire e c time).recent 1 ⟨.actionDone, [e.id, 0x1F] ++ pack8 0 ++ packFlag c.late ++ pack8 c.code ++
        packTime time⟩ := by
  have hd : e.kind.deliver e.params s = ⟨.done, [], s⟩ := by rw [hk]; rfl
  have hf : s.fire e c time = s.handReport .actionDone ([e.id, 0x1F] ++ pack8 0 ++ packFlag c.late ++ pack8 c.code ++
      packTime time) := by
    unfold State.fire
    rw [hd]
    simp only [hon, State.reportIf, if_true, actionDoneFields, hk]
    rfl
  rw [hf]
  exact ⟨s.handReport_only _ _, s.handReport_new _ _⟩

/-- Messages that move leave a change of the Timebase as it is. -/
theorem OnlyMessages.setTas {s t : State} (h : OnlyMessages s t) (b : Tas) : OnlyMessages (s.setTas b) (t.setTas b) :=
  { h with tas := rfl }

theorem OnlyMessages.removeAction {s t : State} (h : OnlyMessages s t) (id : Byte) :
    OnlyMessages (s.removeAction id) (t.removeAction id) := by
  have e : t.removeAction id = t.setTas (s.removeAction id).tas := by
    unfold State.removeAction
    rw [h.tas]
    rfl
  rw [e]
  exact h.setTas _

/-- Settles O16. The firing itself, case by case of cause, is `State.fireAll_cons`; the delivery of each kind is the
owner of the matching request. -/
theorem groupTriggerFiresGroup : Obligations.GroupTriggerFiresGroup := by
  refine ⟨fun tag g s h => ⟨fun hg => ?_, fun hg => ?_⟩, fun tag g e s h hg ht hgr hk hon => ?_,
    fun p hp time s => ⟨rfl, fun e es => ?_⟩, fun p hp tag ps s h => ?_, fun ps s => ⟨rfl, rfl⟩⟩
  · intro es
    rw [exec_groupTrigger]
    obtain ⟨t, ht, hm, hans, -⟩ := groupTrigger_answers h hg
    have hsp := State.fireAll_spares (s.inGroup g.toNat) .group s.tas.now s.popRequest
    have htas := State.fireAll_tas (s.inGroup g.toNat) .group s.tas.now s.popRequest
    refine ⟨t, ht, hm, hans, fun hok => ?_, hm.requests.trans hsp.requests, hm.cst.trans hsp.cst,
      hm.cfl.trans hsp.cfl, hm.pmg.trans hsp.pmg⟩
    rw [hm.tas, htas]
    simp only [State.popRequest_tas]
    rw [table_without (es := s.inGroup g.toNat) hok.2 (fun e => e.trigger.group = some g.toNat) rfl]
  · rw [exec_groupTrigger]
    exact State.immediate_refused h (groupTrigger_range hg _)
  · have hin : s.inGroup g.toNat = [e] := by
      unfold State.inGroup
      rw [ht]
      simp [hgr]
    rw [exec_groupTrigger]
    obtain ⟨t, hx, hm, hans, hrep⟩ := groupTrigger_answers h hg
    rw [hin] at hm hans hrep
    have hrem : s.popRequest.removeAction e.id = s.popRequest.setTas { s.tas with table := [] } := by
      unfold State.removeAction
      simp only [State.popRequest_tas, ht]
      simp
    have hfire : s.popRequest.fireAll [e] .group s.tas.now =
        (s.popRequest.setTas { s.tas with table := [] }).fire e .group s.tas.now := by
      rw [← hrem]
      rfl
    obtain ⟨hfm, hfr⟩ := State.fire_marker (s := s.popRequest.setTas { s.tas with table := [] }) (c := .group)
      (time := s.tas.now) hk hon
    rw [hfire] at hm hrep
    exact ⟨t, hx, hfm.trans hm, hans, (hrep _).mpr hfr.reported⟩
  · intro a
    refine ⟨(s.removeAction e.id).fire e p.1 time, State.fireAll_cons s e es p.1 time, State.fire_only _ _ _ _,
      fun hoff => State.fire_silent hoff, fun hon => ?_⟩
    have h := State.fire_reported (s := s.removeAction e.id) (c := p.1) (time := time) hon
    simp only [List.mem_cons, List.not_mem_nil, or_false] at hp
    rcases hp with rfl | rfl | rfl | rfl | rfl <;> exact h
  · intro a
    have row : ∀ owner, (∀ qs x, owner qs x = p.1.deliver qs x) → ∃ t, s.immediate p.2.1 tag ps owner = .next t ∧
        OnlyMessages a.state t ∧ Answered a.state t p.2.1 tag a.status a.fields := fun owner ho =>
      ⟨_, State.immediate_of_stands h owner, by rw [ho]; exact State.formReply_only _ _ _ _ _,
        by rw [ho]; exact State.formReply_answered _ _ _ _ _⟩
    simp only [List.mem_cons, List.not_mem_nil, or_false] at hp
    rcases hp with rfl | rfl | rfl | rfl | rfl | rfl | rfl | rfl <;> exact row _ fun _ _ => rfl

/-! ## Expiry -/

theorem execActionExpiry_due {s : State} {d : Time} (hp : s.powered = true)
    (h : s.tas.table.head?.bind (fun e => e.trigger.due) = some d) : exec .actionExpiry s =
      .next ((s.awaitTime d).fireAll (s.tas.table.filter fun x => decide (x.trigger.due = some d)) .expiry d) := by
  have he : exec .actionExpiry s = execActionExpiry s := rfl
  rw [he, execActionExpiry, State.live_powered hp]
  simp only [h]
  rfl

theorem execActionExpiry_none {s : State} (hp : s.powered = true)
    (h : s.tas.table.head?.bind (fun e => e.trigger.due) = none) : exec .actionExpiry s = .next s := by
  have he : exec .actionExpiry s = execActionExpiry s := rfl
  rw [he, execActionExpiry, State.live_powered hp]
  simp only [h]

/-- Markers that fire are reported, one after the other, and do nothing else. -/
theorem State.fireAll_markers (c : FireCause) (time : Time) (es : List Action) (s : State)
    (hk : ∀ e ∈ es, e.kind = .marker) (hon : s.mge.enables.actionDone = true) :
    OnlyMessages (s.setTas (s.fireAll es c time).tas) (s.fireAll es c time) ∧
      (∀ (k : Nat) (r : Report), s.recent k r → k + es.length ≤ 8 → (s.fireAll es c time).recent (k + es.length) r) ∧
      (es.length ≤ 8 → ∀ e ∈ es, Reported (s.fireAll es c time) .actionDone
        ([e.id, 0x1F] ++ pack8 0 ++ packFlag c.late ++ pack8 c.code ++ packTime time)) := by
  induction es generalizing s with
  | nil => exact ⟨.refl s, fun _ _ h _ => h, fun _ _ h => absurd h (by simp)⟩
  | cons e es ih =>
    rw [State.fireAll_cons]
    obtain ⟨hm, hr⟩ := State.fire_marker (s := s.removeAction e.id) (c := c) (time := time)
      (hk e List.mem_cons_self) hon
    obtain ⟨hms, hrs, hall⟩ := ih ((s.removeAction e.id).fire e c time) (fun x hx => hk x (List.mem_cons_of_mem _ hx))
      (by rw [hm.mge]; exact hon)
    refine ⟨(hm.setTas _).trans hms, fun k r hrec hl => ?_, fun hl x hx => ?_⟩
    · rw [List.length_cons] at hl ⊢
      have hstep : ((s.removeAction e.id).fire e c time).recent (k + 1) r := State.reportIf_recent
        (by rw [hk e List.mem_cons_self]; exact hrec) (by omega) _ _ _
      have hlast := hrs _ r hstep (by omega)
      rwa [Nat.add_assoc, Nat.add_comm 1] at hlast
    · rw [List.length_cons] at hl
      rcases List.mem_cons.mp hx with rfl | hx
      · exact (hrs 1 _ hr (by omega)).reported
      · exact hall (by omega) x hx

/-- Settles O17. -/
theorem expiryFiresEveryEntryDue : Obligations.ExpiryFiresEveryEntryDue := by
  refine ⟨fun s e rest d hp ht hd => ?_, fun s hp hnone => execActionExpiry_none hp ?_⟩
  · intro es
    have hx := execActionExpiry_due (s := s) (d := d) hp (by rw [ht]; exact hd)
    refine ⟨hx, fun hok hnow => ?_⟩
    have htas : ((s.awaitTime d).fireAll es .expiry d).tas = { s.tas with
        now := d, table := s.tas.table.filter (fun x => decide (x.trigger.due ≠ some d)) } := by
      rw [State.fireAll_tas]
      have hnow' := State.awaitTime_now hnow
      have hawait : (s.awaitTime d).tas = { s.tas with now := (s.awaitTime d).tas.now } := rfl
      rw [hawait, hnow']
      simp only
      rw [table_without hok.2 (fun e => e.trigger.due = some d) rfl]
    have hsp := State.fireAll_spares es .expiry d (s.awaitTime d)
    refine ⟨⟨_, hx, htas, hsp.requests, hsp.cst, hsp.cfl, hsp.pmg⟩, fun hk hon hroom => ?_⟩
    obtain ⟨hm, -, hall⟩ := State.fireAll_markers .expiry d es (s.awaitTime d) hk hon
    rw [htas] at hm
    exact ⟨_, hx, hm, hall (by omega)⟩
  · cases ht : s.tas.table.head? with
    | none => rfl
    | some e => exact hnone e ht

/-! ## Time Marks -/

/-- The state in which a set or step has moved Tether Time fires what the new time reaches or passes. -/
theorem State.firePassed_eq {s x : State} {host : Time} (c : FireCause) (hx : x.tas.table = s.tas.table)
    (hn : x.tas.now = host) : x.firePassed c = x.fireAll
      (s.tas.table.filter fun e => e.trigger.due.any fun d => decide (d.toNat ≤ host.toNat)) c host := by
  unfold State.firePassed
  rw [hx, hn]

/-- What a step of Tether Time has left before anything fires: the clock set, TIME, the report. -/
def State.steppedTo (s : State) (t : Time) (offset : Int) : State :=
  let u := (s.setTas { s.tas with now := t, stepCount := satInc s.tas.stepCount }).setSummary bitTime
  u.reportIf u.mge.enables.timeStep .timeStep
    (packS32 (clampOffset offset) ++ packTime t ++ packCount u.tas.stepCount)

theorem State.stepTime_eq (s : State) (t : Time) (offset : Int) : s.stepTime t offset =
    if 0 < offset then ((s.steppedTo t offset).firePassed .step).audioStep else s.steppedTo t offset := rfl

theorem State.steppedTo_only (s : State) (t : Time) (offset : Int) : OnlyMessages
    ((s.setTas { s.tas with now := t, stepCount := satInc s.tas.stepCount }).withBits bitTime)
    (s.steppedTo t offset) := (State.setSummary_only _ _).trans (State.reportIf_only _ _ _ _)

theorem State.steppedTo_reported {s : State} {t : Time} {offset : Int} (h : s.mge.enables.timeStep = true) :
    Reported (s.steppedTo t offset) .timeStep
      (packS32 (clampOffset offset) ++ packTime t ++ packCount (satInc s.tas.stepCount)) := by
  have hm := (s.setTas { s.tas with now := t, stepCount := satInc s.tas.stepCount }).setSummary_only bitTime
  have hon : ((s.setTas { s.tas with now := t, stepCount := satInc s.tas.stepCount }).setSummary
      bitTime).mge.enables.timeStep = true := by rw [hm.mge]; exact h
  unfold State.steppedTo
  simp only [hon, hm.tas]
  exact State.reportIf_reported _ _ _

section timeMark
variable {payload : List Byte} {s : State}

theorem State.timeMark_malformed (h : payload.length ≠ 6) :
    s.timeMark payload = s.setTas { s.tas with malformedMarks := satInc s.tas.malformedMarks } := if_pos h

/-- A mark of the right length sets the clock where it was not valid, changes nothing within the tolerance, and
steps it outside. -/
theorem State.timeMark_first (h : payload.length = 6) (hv : s.tas.valid = false) : s.timeMark payload =
    (s.setTas { s.tas with markCount := satInc s.tas.markCount }).setTime (BitVec.ofNat 48 (field payload 0 6)) :=
  (if_neg (not_not.mpr h)).trans (if_neg (by rw [hv]; decide))

theorem State.timeMark_within (h : payload.length = 6) (hv : s.tas.valid = true)
    (ho : -2 ≤ (BitVec.ofNat 48 (field payload 0 6) - s.tas.now).toInt ∧
      (BitVec.ofNat 48 (field payload 0 6) - s.tas.now).toInt ≤ 2) :
    s.timeMark payload = s.setTas { s.tas with markCount := satInc s.tas.markCount } :=
  (if_neg (not_not.mpr h)).trans ((if_pos hv).trans (if_pos ho))

theorem State.timeMark_steps (h : payload.length = 6) (hv : s.tas.valid = true)
    (ho : ¬ (-2 ≤ (BitVec.ofNat 48 (field payload 0 6) - s.tas.now).toInt ∧
      (BitVec.ofNat 48 (field payload 0 6) - s.tas.now).toInt ≤ 2)) :
    s.timeMark payload = (s.setTas { s.tas with markCount := satInc s.tas.markCount }).stepTime
      (BitVec.ofNat 48 (field payload 0 6)) (BitVec.ofNat 48 (field payload 0 6) - s.tas.now).toInt :=
  (if_neg (not_not.mpr h)).trans ((if_pos hv).trans (if_neg ho))

end timeMark

/-- Settles O18, by the mark's length, the valid flag and the offset. -/
theorem timeMarkOutcomes : Obligations.TimeMarkOutcomes := by
  intro payload s host offset passed set stepped reported
  refine ⟨State.timeMark_malformed, fun hl hv => ?_, fun hl hv => ?_⟩
  · rw [State.timeMark_first hl hv]
    unfold State.setTime
    exact ⟨fun hle => if_neg (not_lt.mpr hle), fun hlt => (if_pos hlt).trans
      (congrArg State.audioStep (State.firePassed_eq (s := s) (x := s.setTas set) .set rfl rfl))⟩
  · have honly := (s.setTas { s.tas with markCount := satInc s.tas.markCount }).steppedTo_only host offset
    have hstepped : { s.tas with
        now := host, markCount := satInc s.tas.markCount, stepCount := satInc s.tas.stepCount } = stepped := by
      simp only [stepped, set, hv]
    simp only [State.setTas_tas, State.setTas_setTas, hstepped] at honly
    have hrep : reported ((s.setTas { s.tas with markCount := satInc s.tas.markCount }).steppedTo host offset) :=
      fun hon => State.steppedTo_reported hon
    refine ⟨fun h1 h2 => State.timeMark_within hl hv ⟨h1, h2⟩, fun hlt => ⟨_, honly, hrep, ?_⟩, fun hlt => ?_⟩
    · rw [State.timeMark_steps hl hv (fun hn => absurd hn.2 (not_le.mpr hlt)), State.stepTime_eq]
      refine (if_pos (by show 0 < offset; omega)).trans ?_
      rw [State.firePassed_eq (s := s) (host := host) .step (by rw [honly.tas]; rfl) (by rw [honly.tas]; rfl)]
    · have e := State.timeMark_steps hl hv (fun hn => absurd hn.1 (not_le.mpr hlt))
      rw [State.stepTime_eq] at e
      have e' := e.trans (if_neg (by show ¬ 0 < offset; omega))
      rw [e']
      exact ⟨honly, hrep⟩

end Sys2Proof.Machine
end

section
/-! Motion sampling: the settings and queries (2.3 to 2.9, 3.6), ticks (2.3), reads (2.1, 2.4, 2.5), the
Integrator (chapter 3) and the late shift (5.3). -/

namespace Sys2Proof.Machine

/-! ## Requests with one clear byte -/

/-- A status request with a clear byte clears just where the byte is not 0. -/
theorem cleared_state {α : Type} (f : α → State) {s : State} {a c : α} (ha : f a = s) (b : Byte) :
    (if flagField [b] 0 then f c else s) = f (if b = 0 then a else c) := by
  by_cases hb : b = 0
  · subst hb
    rw [if_pos rfl, ha]
    rfl
  · rw [if_neg hb, if_pos ((flagField_one b).mpr hb)]

/-- A row that answers fields and, with clear set, clears. -/
theorem State.immediate_cleared {α : Type} {s : State} {k tag b : Byte} {fields : List Byte} {a c : α}
    {owner : List Byte → State → Answer} (h : Stands s k tag [b]) (f : α → State) (hf : f a = s.popRequest)
    (hser : ∀ x, SameSerial s (f x))
    (ho : owner [b] s.popRequest = ⟨.done, fields, if flagField [b] 0 then f c else s.popRequest⟩) :
    ∃ t, s.immediate k tag [b] owner = .next t ∧ OnlyMessages (f (if b = 0 then a else c)) t ∧
      Answered s t k tag .done fields := by
  rw [cleared_state f hf] at ho
  exact State.immediate_answers h ho (hser _)

theorem flagField_cons (b : Byte) (bs : List Byte) : flagField (b :: bs) 0 = decide (b ≠ 0) := by
  rw [flagField_eq]
  refine decide_eq_decide.mpr (not_congr ⟨fun h => BitVec.eq_of_toNat_eq ?_, fun h => by rw [h]; rfl⟩)
  simpa [field, leNat] using h

/-! ## The settings -/

section settings
variable {ps : List Byte} {s : State}

theorem setSamplingRate_sets (hl : ps.length = 2) : setSamplingRate ps s =
    ⟨.done, pack16 (SampleRate.roundDown (field ps 0 2)).hz ++
        pack16 (s.setSmp { s.smp with requestedRate := SampleRate.roundDown (field ps 0 2) }).rateInForce.hz,
      s.setSmp { s.smp with requestedRate := SampleRate.roundDown (field ps 0 2) }⟩ := if_neg (not_not.mpr hl)

theorem gainOk_iff (g : Nat) : gainOk g = true ↔ 8192 ≤ g ∧ g ≤ 32767 := by simp [gainOk]

theorem setCalibration_sets {c : Channel} (hl : ps.length = 5) (hc : Channel.ofCode (field ps 0 1) = some c)
    (h1 : 8192 ≤ field ps 3 2) (h2 : field ps 3 2 ≤ 32767) : setCalibration ps s =
      ⟨.done, ps, s.setSmp { s.smp with
        calibration := s.smp.calibration.set c ⟨toSigned16 (field ps 1 2), field ps 3 2⟩ }⟩ := by
  unfold setCalibration
  rw [if_neg (not_not.mpr hl), hc]
  exact if_pos ((gainOk_iff _).mpr ⟨h1, h2⟩)

theorem setCalibration_range (hl : ps.length = 5)
    (h : Channel.ofCode (field ps 0 1) = none ∨ field ps 3 2 < 8192 ∨ 32767 < field ps 3 2) :
    setCalibration ps s = s.refuse .range := by
  unfold setCalibration
  rw [if_neg (not_not.mpr hl)]
  split
  · rfl
  · rename_i c hc
    exact if_neg fun hg => by
      have hg' := (gainOk_iff _).mp hg
      rcases h with h | h
      · rw [hc] at h
        cases h
      · omega

theorem setStillness_sets (hl : ps.length = 6) : setStillness ps s =
    ⟨.done, pack16 (field ps 0 2) ++ pack16 (field ps 2 2) ++ pack16 (max 1 (min 600 (field ps 4 2))),
      s.setSmp { s.smp with settings := { s.smp.settings with
        gyroThreshold := field ps 0 2, accelThreshold := field ps 2 2
        stillDelay := max 1 (min 600 (field ps 4 2)) } }⟩ := if_neg (not_not.mpr hl)

theorem setWear_sets (hl : ps.length = 4) : setWear ps s =
    ⟨.done, packS16 (toSigned16 (field ps 0 2)) ++ pack16 (min (field ps 2 2) 32767),
      s.setSmp { s.smp with settings := { s.smp.settings with
        wearThreshold := toSigned16 (field ps 0 2), wearHysteresis := min (field ps 2 2) 32767 } }⟩ :=
  if_neg (not_not.mpr hl)

theorem setMotionReporting_sets (e b : Byte) : setMotionReporting [e, b] s =
    ⟨.done, packFlag (decide (e ≠ 0)) ++ pack8 (max 1 (min 8 b.toNat)), s.setSmp { s.smp with
      reporting := decide (e ≠ 0), batchSize := max 1 (min 8 b.toNat), batch := [] }⟩ := by
  have hb : field [e, b] 1 1 = b.toNat := field_one b
  unfold setMotionReporting
  rw [if_neg (by simp), flagField_cons, hb]
  rfl

theorem readSamples_range (hl : ps.length = 5) (h : field ps 4 1 = 0 ∨ 8 < field ps 4 1) :
    readSamples ps s = s.refuse .range := (if_neg (not_not.mpr hl)).trans (if_pos h)

theorem readSamples_held (hl : ps.length = 5) (h1 : 1 ≤ field ps 4 1) (h8 : field ps 4 1 ≤ 8) : readSamples ps s =
    ⟨.done, pack32 (oldestSeq (s.smp.ring.map SampleRecord.seq)) ++
      pack32 (newestSeq (s.smp.ring.map SampleRecord.seq)) ++
      pack8 (s.smp.ring.filter fun r =>
        decide (field ps 0 4 ≤ r.seq.toNat ∧ r.seq.toNat < field ps 0 4 + field ps 4 1)).length ++
      ((s.smp.ring.filter fun r =>
        decide (field ps 0 4 ≤ r.seq.toNat ∧ r.seq.toNat < field ps 0 4 + field ps 4 1)).map s.heldEntry).flatten, s⟩ :=
  (if_neg (not_not.mpr hl)).trans (if_neg (by omega))

end settings

theorem exec_setSamplingRate (tag : Byte) (ps : List Byte) (s : State) :
    exec (.setSamplingRate tag ps) s = s.immediate 0x21 tag ps setSamplingRate := rfl
theorem exec_setCalibration (tag : Byte) (ps : List Byte) (s : State) :
    exec (.setCalibration tag ps) s = s.immediate 0x22 tag ps setCalibration := rfl
theorem exec_setStillness (tag : Byte) (ps : List Byte) (s : State) :
    exec (.setStillness tag ps) s = s.immediate 0x23 tag ps setStillness := rfl
theorem exec_setWear (tag : Byte) (ps : List Byte) (s : State) :
    exec (.setWear tag ps) s = s.immediate 0x24 tag ps setWear := rfl
theorem exec_setMotionReporting (tag : Byte) (ps : List Byte) (s : State) :
    exec (.setMotionReporting tag ps) s = s.immediate 0x25 tag ps setMotionReporting := rfl
theorem exec_readSamples (tag : Byte) (ps : List Byte) (s : State) :
    exec (.readSamples tag ps) s = s.immediate 0x26 tag ps readSamples := rfl
theorem exec_readMotionStatus (tag : Byte) (ps : List Byte) (s : State) :
    exec (.readMotionStatus tag ps) s = s.immediate 0x27 tag ps readMotionStatus := rfl
theorem exec_readOrientation (tag : Byte) (ps : List Byte) (s : State) :
    exec (.readOrientation tag ps) s = s.immediate 0x30 tag ps readOrientation := rfl

/-- Settles O20: each row answers what its owner's equation says. -/
theorem motionRequestsApplied : Obligations.MotionRequestsApplied := by
  refine ⟨⟨fun tag ps s h hl => ?_, fun tag ps c s h hl hc h1 h2 => ?_, fun tag ps s h hl hr => ?_,
      fun tag ps s h hl => ?_, fun tag ps s h hl => ?_, fun tag e b s h => ?_⟩,
    fun tag ps s h hl h1 h8 => ?_, fun tag ps s h hl hr => ?_, fun tag b s h => ?_, fun tag b s h => ?_⟩
  · intro r x
    rw [exec_setSamplingRate]
    exact State.immediate_answers h (setSamplingRate_sets hl) rfl
  · rw [exec_setCalibration]
    exact State.immediate_answers h (setCalibration_sets hl hc h1 h2) rfl
  · rw [exec_setCalibration]
    exact State.immediate_refused h (setCalibration_range hl hr)
  · intro d
    rw [exec_setStillness]
    exact State.immediate_answers h (setStillness_sets hl) rfl
  · intro w d
    rw [exec_setWear]
    exact State.immediate_answers h (setWear_sets hl) rfl
  · intro n
    rw [exec_setMotionReporting]
    exact State.immediate_answers h (setMotionReporting_sets e b) rfl
  · intro rs
    rw [exec_readSamples]
    exact State.immediate_answers h (readSamples_held hl h1 h8) rfl
  · rw [exec_readSamples]
    exact State.immediate_refused h (readSamples_range hl hr)
  · rw [exec_readMotionStatus]
    exact State.immediate_cleared h s.popRequest.setSmp rfl (fun _ => rfl) (if_neg (by simp))
  · rw [exec_readOrientation]
    exact State.immediate_cleared h s.popRequest.setOri rfl (fun _ => rfl) (if_neg (by simp))

/-! ## Ticks -/

theorem sampleRate_min_hz (a b : SampleRate) : (a.min b).hz = min a.hz b.hz := by
  unfold SampleRate.min
  split
  · exact (Nat.min_eq_left ‹_›).symm
  · exact (Nat.min_eq_right (by omega)).symm

theorem SampleRate.period_eq (r : SampleRate) : r.period = 1000000 / r.hz := by
  cases r <;> rfl

theorem State.rateInForce_hz (s : State) : s.rateInForce.hz =
    min (min s.smp.requestedRate.hz s.pmg.rows[s.pmg.stage].maxRate.hz)
      (if s.smp.presence = .still then 100 else 1000) := by
  unfold State.rateInForce
  rw [sampleRate_min_hz, sampleRate_min_hz]
  split <;> rfl

/-- A tick is one period of the rate in force before the next, and starts a set or is skipped. -/
theorem exec_samplingTick {s : State} {due : Nat} (hp : s.powered = true) (hd : s.smp.tickDue = some due) :
    exec .samplingTick s = .next
      (if s.smp.set.isSome then
        ((s.advanceTo due).setSmp { s.smp with tickDue := some (due + s.rateInForce.period * 750) }).skipTick
      else ((s.advanceTo due).setSmp { s.smp with
        tickDue := some (due + s.rateInForce.period * 750) }).startSet s.rateInForce.period) := by
  have he : exec .samplingTick s = execSamplingTick s := rfl
  rw [he, execSamplingTick, State.live_powered hp]
  simp only [hd]
  rfl

/-- Settles O21, by whether a set is in progress. -/
theorem tickStartsOrIsSkipped : Obligations.TickStartsOrIsSkipped := by
  refine ⟨fun s => ⟨s.rateInForce_hz, s.rateInForce.period_eq⟩, fun s due hp hd => ?_⟩
  intro u p
  rw [exec_samplingTick hp hd]
  constructor
  · intro hset
    rw [hset]
    simp only [Option.isSome_none, Bool.false_eq_true, if_false]
    unfold State.startSet
    simp only [State.setSmp_smp, State.setSmp_setSmp, State.setSmp_tas, State.setSmp_osc]
    rfl
  · intro hset
    refine ⟨_, congrArg _ (if_pos (Option.isSome_iff_ne_none.mpr hset)), ?_⟩
    exact State.setSummary_only _ _

/-! ## Reads -/

theorem exec_sensorReadyLineRaised {s : State} {st : SampleSet} {x : SensorSlot} {rest : List SensorSlot}
    (hp : s.powered = true) (hs : s.smp.set = some st) (ht : st.todo = x :: rest) (hr : st.readyAt = none)
    (ho : s.osc ≤ st.readStart + us 100) : exec (.sensorReadyLineRaised x.device) s =
      .next (s.setSmp { s.smp with set := some { st with readyAt := some s.osc } }) := by
  have he : exec (.sensorReadyLineRaised x.device) s = execSensorReadyLineRaised x.device s := rfl
  rw [he, execSensorReadyLineRaised, State.live_powered hp]
  simp only [hs, hr, ht, List.head?_cons, Option.map_some, ho, and_self, if_true]

/-- A read ends 24 µs after its ready line was seen. -/
theorem exec_sensorReadEnd {s : State} {st : SampleSet} {x : SensorSlot} {rest : List SensorSlot} {word : BitVec 16}
    {ready : Nat} (hp : s.powered = true) (hs : s.smp.set = some st) (ht : st.todo = x :: rest)
    (hr : st.readyAt = some ready) : exec (.sensorReadEnd word) s =
      .next (((s.advanceTo (ready + us 24)).goodRead st x word).1.nextRead
        ((s.advanceTo (ready + us 24)).goodRead st x word).2 (ready + us 24)) := by
  have he : exec (.sensorReadEnd word) s = execSensorReadEnd word s := rfl
  rw [he, execSensorReadEnd, State.live_powered hp]
  simp only [hs, hr, ht]

/-- A read whose ready line was not seen fails 100 µs after its start. -/
theorem exec_sensorReadTimeout {s : State} {st : SampleSet} {x : SensorSlot} {rest : List SensorSlot}
    (hp : s.powered = true) (hs : s.smp.set = some st) (ht : st.todo = x :: rest) (hr : st.readyAt = none) :
    exec .sensorReadTimeout s =
      .next (((s.advanceTo (st.readStart + us 100)).failedRead st x).1.nextRead
        ((s.advanceTo (st.readStart + us 100)).failedRead st x).2 (st.readStart + us 100)) := by
  have he : exec .sensorReadTimeout s = execSensorReadTimeout s := rfl
  rw [he, execSensorReadTimeout, State.live_powered hp]
  simp only [hs, hr, ht]

/-- A read that is not the last of its set hands over to the next. -/
theorem State.nextRead_more {s : State} {st : SampleSet} {x y : SensorSlot} {rest : List SensorSlot} (ends : Nat)
    (h : st.todo = x :: y :: rest) : s.nextRead st ends =
      s.setSmp { s.smp with set := some { st with todo := y :: rest, readStart := ends, readyAt := none } } := by
  unfold State.nextRead
  rw [h]
  rfl

theorem State.goodRead_channel {s : State} {st : SampleSet} {x : SensorSlot} {c : Channel} (word : BitVec 16)
    (h : x.channel = some c) : s.goodRead st x word =
      (s.setSmp { s.smp with
        held := s.smp.held.set c ((s.smp.calibration.get c).correct word).1
        saturatedValues := if ((s.smp.calibration.get c).correct word).2 then satInc s.smp.saturatedValues
          else s.smp.saturatedValues },
       { st with readings := st.readings.set c (.good ((s.smp.calibration.get c).correct word).1
          ((s.smp.calibration.get c).correct word).2) }) := by
  unfold State.goodRead
  rw [h]

theorem State.goodRead_none {s : State} {st : SampleSet} {x : SensorSlot} (word : BitVec 16) (h : x.channel = none) :
    s.goodRead st x word = (s, st) := by
  unfold State.goodRead
  rw [h]

/-- A quotient rounded to the nearest, halves away from zero, from its sign and its magnitude. -/
theorem sign_mul_round (n : Int) (d h : Nat) (hh : h < d) : n.sign * ((n.natAbs + h) / d : Nat) =
    if 0 ≤ n then (n + h) / d else -((-n + h) / d) := by
  rcases lt_trichotomy n 0 with hn | rfl | hn
  · rw [if_neg (by omega), Int.sign_eq_neg_one_of_neg hn, Int.natCast_div, Int.natCast_add, Int.natCast_natAbs,
      abs_of_neg hn]
    omega
  · simp only [Int.sign_zero, Int.zero_mul, le_refl, if_true, Int.zero_add]
    rw [← Int.natCast_div, Nat.div_eq_of_lt hh]
    rfl
  · rw [if_pos hn.le, Int.sign_eq_one_of_pos hn, Int.natCast_div, Int.natCast_add, Int.natCast_natAbs,
      abs_of_pos hn]
    omega

theorem Calibration.correct_eq (c : Calibration) (raw : BitVec 16) : c.correct raw =
    (max (-32768) (min 32767 (roundGain ((raw.toInt - c.bias) * c.gain))),
      decide (roundGain ((raw.toInt - c.bias) * c.gain) < -32768 ∨
        32767 < roundGain ((raw.toInt - c.bias) * c.gain))) := by
  unfold Calibration.correct sat16 clampInt
  refine Prod.ext rfl (decide_eq_decide.mpr ?_)
  omega

/-- Settles O22, by the read's end and whether its slot has a channel. -/
theorem sensorReadsAdvanceSet : Obligations.SensorReadsAdvanceSet := by
  refine ⟨fun s st x y rest hp hs ht => ⟨fun hr ho => exec_sensorReadyLineRaised hp hs ht hr ho,
    fun word ready hr => ?_, fun hr => ?_⟩, fun c raw => ?_⟩
  · intro u next
    rw [exec_sensorReadEnd hp hs ht hr]
    constructor
    · intro c hc v
      rw [State.goodRead_channel word hc]
      exact congrArg _ (State.nextRead_more (st := { st with readings := st.readings.set c (.good v.1 v.2) }) _ ht)
    · intro hc
      rw [State.goodRead_none word hc]
      exact congrArg _ (State.nextRead_more (st := st) _ ht)
  · intro u failed next
    rw [exec_sensorReadTimeout hp hs ht hr]
    have hmore := State.nextRead_more (s := (u.failedRead st x).1) (st := (u.failedRead st x).2)
      (st.readStart + us 100) ht
    refine ⟨fun c hc => congrArg _ (hmore.trans ?_), fun hc => congrArg _ (hmore.trans ?_)⟩ <;>
    · unfold State.failedRead
      rw [hc]
      simp only [State.setSmp_smp, State.setSmp_setSmp, next, hr]
      rfl
  · intro n q
    rw [Calibration.correct_eq]
    have hq : roundGain ((raw.toInt - c.bias) * c.gain) = q := sign_mul_round n 16384 8192 (by omega)
    rw [hq]

/-! ## The Integrator -/

theorem push64_getLast {α : Type} (l : List α) (a : α) : (push64 l a).getLast? = some a := by
  simp [push64]

/-- The axis rate is that of a channel which is held and fresh, else 0. -/
theorem AxisSource.rate_eq (a : AxisSource) (r : SampleRecord) : (a.rate r).1 =
    match r.values.get a.source.channel with
      | none => 0
      | some v => if v.stale then 0 else if a.negative then -v.value else v.value := by
  unfold AxisSource.rate
  cases r.values.get a.source.channel with
  | none => rfl
  | some v => exact apply_ite Prod.fst (v.stale = true) _ _

theorem Ori.interval_eq {o : Ori} {p t : Time} (h : o.previousTime = some p) :
    ((o.interval t).1 : Int) = max 1 (min 10000 (t - p).toInt) := by
  unfold Ori.interval
  rw [h]
  show ((clampInt 1 10000 (timeDiff t p)).toNat : Int) = _
  unfold clampInt timeDiff
  omega

/-- Settles O24. -/
theorem integratorAddsRateTimesInterval : Obligations.IntegratorAddsRateTimesInterval := by
  intro o r p hp n rate q
  have hn : ((o.interval r.time).1 : Int) = n := Ori.interval_eq hp
  have angle : ∀ (acc : Angle) (a : AxisSource), addAngle acc (a.rate r).1 (o.interval r.time).1 =
      acc + BitVec.ofInt 32 (rate a * n) := fun acc a => by
    have hr : (a.rate r).1 = rate a := AxisSource.rate_eq a r
    unfold addAngle
    rw [hr, hn]
  refine ⟨angle _ _, angle _ _, angle _ _, rfl, rfl, ⟨_, push64_getLast _ _, rfl, rfl, rfl, rfl, rfl, ?_⟩,
    fun hl => push64_length _ _ hl⟩
  rw [← hn]
  rfl

/-! ## Pose lookups and the late shift -/

section lookup
variable {o : Ori} {tag : Seq} {q : Time} {e n : PoseEntry}

theorem Ori.lookup_held (he : o.history.find? (fun e => decide (e.seq = tag)) = some e)
    (hn : o.history.getLast? = some n) : o.lookup tag q =
      if 60000 < (q - e.time).toInt then
        (.stale .aged, { o with lookups := satInc o.lookups, aged := satInc o.aged })
      else (.valid (n.yaw - e.yaw).toInt (n.pitch - e.pitch).toInt n.time n.yawRate n.pitchRate,
        { o with lookups := satInc o.lookups }) := by
  unfold Ori.lookup
  simp only [he, hn]
  rfl

theorem Ori.lookup_missing (h : ∀ e ∈ o.history, e.seq ≠ tag) : o.lookup tag q =
    (.stale .missing, { o with lookups := satInc o.lookups, missing := satInc o.missing }) := by
  have hf : o.history.find? (fun e => decide (e.seq = tag)) = none := List.find?_eq_none.mpr (by simpa using h)
  unfold Ori.lookup
  simp only [hf]

end lookup

theorem pixels_eq (q : Int) : pixels q =
    if 0 ≤ q then (q + 2048000000) / 4096000000 else -((-q + 2048000000) / 4096000000) :=
  sign_mul_round q 4096000000 2048000000 (by omega)

theorem clampInt_band (g : Nat) (v : Int) : -(g : Int) ≤ clampInt (-g) g v ∧ clampInt (-g) g v ≤ g := by
  unfold clampInt
  omega

/-- Settles O25. -/
theorem poseLookupAndLateShift : Obligations.PoseLookupAndLateShift := by
  refine ⟨fun o tag q => ⟨fun e n he hn => ⟨fun hle => ?_, fun hlt => ?_⟩, Ori.lookup_missing⟩,
    fun m g start l => ?_, fun m g start newest dy dp cy cp => ?_⟩
  · rw [Ori.lookup_held he hn, if_neg (not_lt.mpr hle)]
  · rw [Ori.lookup_held he hn, if_pos hlt]
  · cases l with
    | stale reason =>
      exact ⟨⟨by show -(m.gh : Int) ≤ 0; omega, by show (0 : Int) ≤ m.gh; omega⟩,
        ⟨by show -(m.gv : Int) ≤ 0; omega, by show (0 : Int) ≤ m.gv; omega⟩, fun _ _ => rfl,
        fun h => absurd rfl (h reason)⟩
    | valid dy dp newest cy cp =>
      exact ⟨clampInt_band _ _, clampInt_band _ _, fun _ h => Lookup.noConfusion h, fun _ => rfl⟩
  · intro target raw lead turned x y sx sy
    simp only [lateShift, pixels_eq]
    rfl

end Sys2Proof.Machine
end

section
/-! Presence reports (R35) and Set Schedule (R21, R22). -/

namespace Sys2Proof.Machine

/-! ## Presence reports -/

/-- The fields of a Presence report. -/
def Smp.presenceFields (m : Smp) (now : Time) (cause : Nat) : List Byte :=
  pack8 cause ++ pack8 m.presence.code ++ packFlag m.removed ++ packFlag m.still ++ packFlag m.faults.inertial.faulted ++
    packFlag m.faults.proximity.faulted ++ packTime now

theorem State.presenceReport_eq (s : State) (c : Nat) : s.presenceReport c =
    s.reportIf s.mge.enables.presence .presence (s.smp.presenceFields s.tas.now c) := rfl

theorem State.presenceReport_only (s : State) (c : Nat) : OnlyMessages s (s.presenceReport c) := s.reportIf_only _ _ _

theorem State.presenceReport_serial (s : State) (c : Nat) : SameSerial s (s.presenceReport c) :=
  s.reportIf_serial _ _ _

theorem State.presenceReport_recent {s : State} {k : Nat} {r : Report} (h : s.recent k r) (hk : k < 8) (c : Nat) :
    (s.presenceReport c).recent (k + 1) r := State.reportIf_recent h hk _ _ _

/-- A Presence report whose enable is on is formed. -/
theorem State.presenceReport_new {s : State} (c : Nat) (h : s.mge.enables.presence = true) :
    (s.presenceReport c).recent 1 ⟨.presence, s.smp.presenceFields s.tas.now c⟩ := by
  rw [State.presenceReport_eq, h]
  exact s.handReport_new _ _

/-- Messages that move leave a change of the Sampler as it is. -/
theorem OnlyMessages.mapSmp {s t : State} (h : OnlyMessages s t) (f : Smp → Smp) :
    OnlyMessages (s.setSmp (f s.smp)) (t.setSmp (f t.smp)) := by
  rw [h.smp]
  exact { h with smp := rfl }

theorem OnlyMessages.rateInForce {s t : State} (h : OnlyMessages s t) : t.rateInForce = s.rateInForce := by
  unfold State.rateInForce
  rw [h.smp, h.pmg]

/-- The presence state worked out, and the cap with it; the report is the rest. -/
def State.presenceSettled (s : State) : State :=
  let p := presenceOf s.smp.removed s.smp.still
  if p = s.smp.presence then s else (s.setSmp { s.smp with presence := p }).updateCap

theorem State.settlePresence_only (s : State) : OnlyMessages s.presenceSettled s.settlePresence := by
  unfold State.presenceSettled State.settlePresence
  simp only
  split
  · exact .refl s
  · exact State.presenceReport_only _ _

theorem State.settlePresence_serial (s : State) : SameSerial s s.settlePresence := by
  unfold State.settlePresence
  simp only
  split
  · rfl
  · exact (State.presenceReport_serial _ 1).trans rfl

theorem State.settlePresence_recent {s : State} {k : Nat} {r : Report} (h : s.recent k r) (hk : k < 8) :
    s.settlePresence.recent (k + 1) r := by
  unfold State.settlePresence
  simp only
  split
  · exact h.mono (Nat.le_succ k)
  · refine State.presenceReport_recent ?_ hk 1
    exact h

/-- The Sampler after the presence state is settled, whether or not it changed. -/
theorem State.presenceSettled_smp (s : State) : s.presenceSettled.smp =
    { s.smp with presence := presenceOf s.smp.removed s.smp.still } := by
  unfold State.presenceSettled
  simp only
  split
  · rename_i h
    rw [h]
  · rfl

/-- A change of the presence state is reported with cause 1. -/
theorem State.settlePresence_reported {s : State} (hne : presenceOf s.smp.removed s.smp.still ≠ s.smp.presence)
    (hon : s.mge.enables.presence = true) : s.settlePresence.recent 1 ⟨.presence,
      Smp.presenceFields { s.smp with presence := presenceOf s.smp.removed s.smp.still } s.tas.now 1⟩ := by
  unfold State.settlePresence
  simp only [if_neg hne]
  have h := State.presenceReport_new
    (s := (s.setSmp { s.smp with presence := presenceOf s.smp.removed s.smp.still }).updateCap) 1 hon
  exact h

/-! ## A device that a new list leaves without a slot -/

/-- The fault states after a device is left without a slot. -/
def PerDevice.dropped (f : PerDevice DeviceFault) (l : List SensorSlot) (d : Device) : PerDevice DeviceFault :=
  if hasDevice l d then f else f.set d ⟨false, 0⟩

theorem State.dropDevice_only (s : State) (l : List SensorSlot) (d : Device) :
    OnlyMessages (s.setSmp { s.smp with faults := s.smp.faults.dropped l d }) (s.dropDevice l d) := by
  unfold State.dropDevice PerDevice.dropped
  split
  · exact .refl s
  · simp only
    split
    · exact State.presenceReport_only _ _
    · exact .refl _

theorem State.dropDevice_serial (s : State) (l : List SensorSlot) (d : Device) : SameSerial s (s.dropDevice l d) := by
  unfold State.dropDevice
  split
  · rfl
  · simp only
    split
    · exact (State.presenceReport_serial _ 3).trans rfl
    · rfl

theorem State.dropDevice_recent {s : State} {k : Nat} {r : Report} (h : s.recent k r) (hk : k < 8)
    (l : List SensorSlot) (d : Device) : (s.dropDevice l d).recent (k + 1) r := by
  unfold State.dropDevice
  split
  · exact h.mono (Nat.le_succ k)
  · simp only
    split
    · refine State.presenceReport_recent ?_ hk 3
      exact h
    · exact h.mono (Nat.le_succ k)

/-- A faulted device left without a slot is reported with cause 3. -/
theorem State.dropDevice_reported {s : State} {l : List SensorSlot} {d : Device} (hd : hasDevice l d = false)
    (hf : (s.smp.faults.get d).faulted = true) (hon : s.mge.enables.presence = true) :
    (s.dropDevice l d).recent 1 ⟨.presence,
      Smp.presenceFields { s.smp with faults := s.smp.faults.set d ⟨false, 0⟩ } s.tas.now 3⟩ := by
  unfold State.dropDevice
  simp only [hd, hf, Bool.false_eq_true, if_false, if_true]
  exact State.presenceReport_new (s := s.setSmp { s.smp with faults := s.smp.faults.set d ⟨false, 0⟩ }) 3 hon

/-! ## A new Slot List takes effect -/

/-- The Sampler with a new Slot List, before the presence state and the faults follow. -/
def Smp.listed (m : Smp) (l : List SensorSlot) : Smp :=
  { m with
    slotList := l, stillTime := 0, previous := .const none, removalRun := 0, returnRun := 0
    removed := m.removed && hasProx l }

/-- The Sampler with a new Slot List, a presence state, and the faults of the devices that are left. -/
def Smp.settled (m : Smp) (l : List SensorSlot) (p : Presence) : Smp :=
  { m.listed l with presence := p, faults := (m.faults.dropped l .inertial).dropped l .proximity }

/-- The state with a new Slot List, the presence state and the faults following it. -/
def State.scheduled (s : State) (l : List SensorSlot) : State :=
  let x := (s.setSmp (s.smp.listed l)).presenceSettled
  x.setSmp { x.smp with faults := (x.smp.faults.dropped l .inertial).dropped l .proximity }

/-- The list applied, its messages included, but for the tick timer. -/
def State.listApplied (s : State) (l : List SensorSlot) : State :=
  ((s.setSmp (s.smp.listed l)).settlePresence.dropDevice l .inertial).dropDevice l .proximity

theorem State.applySchedule_eq (s : State) (l : List SensorSlot) :
    s.applySchedule l = (s.listApplied l).rescheduleTick s.smp.slotList := rfl

theorem State.listApplied_only (s : State) (l : List SensorSlot) : OnlyMessages (s.scheduled l) (s.listApplied l) := by
  have h1 := State.settlePresence_only (s.setSmp (s.smp.listed l))
  have h2 := (h1.mapSmp fun m => { m with faults := m.faults.dropped l .inertial }).trans (State.dropDevice_only _ _ _)
  exact (h2.mapSmp fun m => { m with faults := m.faults.dropped l .proximity }).trans (State.dropDevice_only _ _ _)

theorem State.listApplied_serial (s : State) (l : List SensorSlot) : SameSerial s (s.listApplied l) :=
  ((State.dropDevice_serial _ _ _).trans (State.dropDevice_serial _ _ _)).trans
    ((s.setSmp (s.smp.listed l)).settlePresence_serial)

/-- When the next tick falls due after a new list. -/
def State.tickAfter (s : State) (old : List SensorSlot) : Option Nat :=
  if s.smp.slotList.isEmpty then none
  else if old.isEmpty && !s.cst.loading then some (s.osc + us s.rateInForce.period)
  else s.smp.tickDue

theorem State.applySchedule_only (s : State) (l : List SensorSlot) : OnlyMessages
    ((s.scheduled l).setSmp { (s.scheduled l).smp with tickDue := (s.scheduled l).tickAfter s.smp.slotList })
    (s.applySchedule l) := by
  have h := s.listApplied_only l
  have hd : (s.listApplied l).tickAfter s.smp.slotList = (s.scheduled l).tickAfter s.smp.slotList := by
    unfold State.tickAfter
    rw [h.smp, h.cst, h.osc, h.rateInForce]
  have hm := h.mapSmp fun m => { m with tickDue := (s.scheduled l).tickAfter s.smp.slotList }
  rw [State.applySchedule_eq]
  show OnlyMessages _ ((s.listApplied l).setSmp { (s.listApplied l).smp with
    tickDue := (s.listApplied l).tickAfter s.smp.slotList })
  rw [hd]
  exact hm

/-- The changes that a new list brings are reported, the presence state's first, then INERTIAL's, then
PROXIMITY's. -/
theorem State.listApplied_reported (s : State) (l : List SensorSlot) (hon : s.mge.enables.presence = true) :
    let p := presenceOf (s.smp.removed && hasProx l) s.smp.still
    let m := { s.smp.listed l with presence := p }
    (p ≠ s.smp.presence → (s.listApplied l).recent 3 ⟨.presence, m.presenceFields s.tas.now 1⟩) ∧
    (hasDevice l .inertial = false → s.smp.faults.inertial.faulted = true →
      (s.listApplied l).recent 2 ⟨.presence,
        Smp.presenceFields { m with faults := m.faults.set .inertial ⟨false, 0⟩ } s.tas.now 3⟩) ∧
    (hasDevice l .proximity = false → s.smp.faults.proximity.faulted = true →
      (s.listApplied l).recent 1 ⟨.presence,
        Smp.presenceFields { m with faults := (m.faults.dropped l .inertial).set .proximity ⟨false, 0⟩ }
          s.tas.now 3⟩) := by
  intro p m
  have h1 := State.settlePresence_only (s.setSmp (s.smp.listed l))
  have hsmp1 : (s.setSmp (s.smp.listed l)).settlePresence.smp = m := by
    rw [h1.smp, State.presenceSettled_smp]
    rfl
  have htas : (s.setSmp (s.smp.listed l)).presenceSettled.tas = s.tas ∧
      (s.setSmp (s.smp.listed l)).presenceSettled.mge = s.mge := by
    unfold State.presenceSettled
    simp only
    split <;> exact ⟨rfl, rfl⟩
  have hon1 : (s.setSmp (s.smp.listed l)).settlePresence.mge.enables.presence = true := by
    rw [h1.mge, htas.2]
    exact hon
  have h2 := State.dropDevice_only (s.setSmp (s.smp.listed l)).settlePresence l .inertial
  refine ⟨fun hne => ?_, fun hd hf => ?_, fun hd hf => ?_⟩
  · have h := State.settlePresence_reported (s := s.setSmp (s.smp.listed l)) hne hon
    exact State.dropDevice_recent (State.dropDevice_recent h (by omega) l .inertial) (by omega) l .proximity
  · have h := State.dropDevice_reported (s := (s.setSmp (s.smp.listed l)).settlePresence) hd
      (by rw [hsmp1]; exact hf) hon1
    rw [hsmp1, h1.tas, htas.1] at h
    exact State.dropDevice_recent h (by omega) l .proximity
  · have hsmp2 : ((s.setSmp (s.smp.listed l)).settlePresence.dropDevice l .inertial).smp =
        { m with faults := m.faults.dropped l .inertial } := by
      rw [h2.smp, State.setSmp_smp, hsmp1]
    have h := State.dropDevice_reported (s := (s.setSmp (s.smp.listed l)).settlePresence.dropDevice l .inertial)
      (l := l) hd (by
        rw [hsmp2]
        unfold PerDevice.dropped
        split <;> exact hf) (by
        rw [h2.mge]
        exact hon1)
    rw [hsmp2, h2.tas, State.setSmp_tas, h1.tas, htas.1] at h
    exact h

/-! ## Set Schedule -/

theorem exec_setSchedule (tag : Byte) (ps : List Byte) (s : State) :
    exec (.setSchedule tag ps) s = s.immediate 0x20 tag ps setSchedule := rfl

theorem field_cons (b : Byte) (bs : List Byte) : field (b :: bs) 0 1 = b.toNat := by simp [field, leNat]

section setSchedule
variable {ps : List Byte} {s : State}

theorem setSchedule_length (h : ps.length ≠ 1 + 3 * field ps 0 1) : setSchedule ps s = s.refuse .length := if_pos h

theorem setSchedule_range (hl : ps.length = 1 + 3 * field ps 0 1)
    (h : slotListOf (field ps 0 1) (ps.drop 1) = none) : setSchedule ps s = s.refuse .range := by
  unfold setSchedule
  rw [if_neg (not_not.mpr hl), h]

theorem setSchedule_applies {n : Byte} {bs : List Byte} {l : List SensorSlot} (hl : bs.length = 3 * n.toNat)
    (h : slotListOf n.toNat bs = some l) : setSchedule (n :: bs) s = ⟨.done, pack8 l.length, s.applySchedule l⟩ := by
  unfold setSchedule
  rw [field_cons, if_neg (by simp only [List.length_cons]; omega), List.drop_one, List.tail_cons, h]

end setSchedule

/-- The fault states that a new list leaves, device by device. -/
theorem PerDevice.dropped_both (f : PerDevice DeviceFault) (l : List SensorSlot) :
    (f.dropped l .inertial).dropped l .proximity =
      ⟨if hasDevice l .inertial then f.inertial else ⟨false, 0⟩,
        if hasDevice l .proximity then f.proximity else ⟨false, 0⟩⟩ := by
  unfold PerDevice.dropped
  cases hasDevice l .inertial <;> cases hasDevice l .proximity <;> rfl

theorem deviceOfCode_iff (n : Nat) (d : Device) : deviceOfCode n = some d ↔ n = if d = .inertial then 0 else 1 := by
  constructor
  · intro h
    unfold deviceOfCode at h
    split at h <;> cases h <;> rfl
  · rintro rfl
    cases d <;> rfl

theorem channelOfCode_iff (n : Nat) (c : Channel) : Channel.ofCode n = some c ↔ n = c.code := by
  constructor
  · intro h
    simpa [eq_comm] using List.find?_some h
  · rintro rfl
    cases c <;> rfl

theorem slotChannelOfCode_iff (n : Nat) (c : Option Channel) : slotChannelOfCode n = some c ↔
    n = match c with
      | none => 8
      | some c => c.code := by
  unfold slotChannelOfCode
  cases c with
  | none =>
    by_cases h : n = 8
    · simp [h]
    · simp [h]
  | some c =>
    have hc : c.code ≠ 8 := by cases c <;> decide
    by_cases h : n = 8
    · subst h
      simp [hc.symm]
    · simp [h, channelOfCode_iff]

theorem parseSlot_iff (d a c : Nat) (x : SensorSlot) : parseSlot d a c = some x ↔
    d = (if x.device = .inertial then 0 else 1) ∧ BitVec.ofNat 8 a = x.address ∧
      c = match x.channel with
        | none => 8
        | some c => c.code := by
  rw [← deviceOfCode_iff, ← slotChannelOfCode_iff]
  unfold parseSlot
  obtain ⟨device, address, channel⟩ := x
  cases deviceOfCode d <;> cases slotChannelOfCode c <;> simp

theorem field_drop (bs : List Byte) (n k len : Nat) : field (bs.drop n) k len = field bs (n + k) len := by
  simp only [field, List.drop_drop]

/-- A list of slots is read description by description. -/
theorem parseSlots_iff (n : Nat) (bs : List Byte) (l : List SensorSlot) : parseSlots n bs = some l ↔
    l.length = n ∧ ∀ (i : Nat) (x : SensorSlot), l[i]? = some x →
      parseSlot (field bs (3 * i) 1) (field bs (3 * i + 1) 1) (field bs (3 * i + 2) 1) = some x := by
  induction n generalizing bs l with
  | zero =>
    cases l with
    | nil => simp [parseSlots]
    | cons x l => simp [parseSlots]
  | succ n ih =>
    have shift : ∀ i k, field (bs.drop 3) (3 * i + k) 1 = field bs (3 * (i + 1) + k) 1 := fun i k => by
      rw [field_drop]
      congr 1
      omega
    cases l with
    | nil =>
      unfold parseSlots
      cases parseSlot (field bs 0 1) (field bs 1 1) (field bs 2 1) <;> cases parseSlots n (bs.drop 3) <;> simp
    | cons x l =>
      have hcons : parseSlots (n + 1) bs = some (x :: l) ↔
          parseSlot (field bs 0 1) (field bs 1 1) (field bs 2 1) = some x ∧ parseSlots n (bs.drop 3) = some l := by
        conv_lhs => unfold parseSlots
        cases parseSlot (field bs 0 1) (field bs 1 1) (field bs 2 1) <;> cases parseSlots n (bs.drop 3) <;> simp
      rw [hcons, ih]
      constructor
      · rintro ⟨h0, hlen, hrest⟩
        refine ⟨by simp [hlen], fun i y hy => ?_⟩
        cases i with
        | zero =>
          cases hy
          exact h0
        | succ i =>
          have h := hrest i y hy
          have e := shift i 0
          simp only [Nat.add_zero] at e
          rwa [e, shift, shift] at h
      · rintro ⟨hlen, hall⟩
        refine ⟨hall 0 x rfl, by simpa using hlen, fun i y hy => ?_⟩
        have h := hall (i + 1) y hy
        have e := shift i 0
        simp only [Nat.add_zero] at e
        rw [e, shift, shift]
        exact h

/-- No channel is on two slots. -/
theorem channels_nodup_iff (l : List SensorSlot) : (l.filterMap SensorSlot.channel).Nodup ↔
    ∀ (i j : Nat) (x y : SensorSlot), l[i]? = some x → l[j]? = some y → x.channel ≠ none →
      x.channel = y.channel → i = j := by
  unfold List.Nodup
  rw [List.pairwise_filterMap, List.pairwise_iff_getElem]
  constructor
  · intro h i j x y hx hy hc he
    obtain ⟨c, hxc⟩ := Option.ne_none_iff_exists'.mp hc
    obtain ⟨hi, rfl⟩ := List.getElem?_eq_some_iff.mp hx
    obtain ⟨hj, rfl⟩ := List.getElem?_eq_some_iff.mp hy
    rcases Nat.lt_trichotomy i j with hlt | heq | hlt
    · exact absurd rfl (h i j hi hj hlt c hxc c (he ▸ hxc))
    · exact heq
    · exact absurd rfl (h j i hj hi hlt c (he ▸ hxc) c hxc)
  · intro h i j hi hj hlt c hc d hd hcd
    subst hcd
    have := h i j _ _ (List.getElem?_eq_getElem hi) (List.getElem?_eq_getElem hj) (by simp [hc]) (hc.trans hd.symm)
    omega

theorem slotsValid_iff (l : List SensorSlot) : slotsValid l = true ↔
    (∀ x ∈ l, ∀ c, x.channel = some c → x.device = if c = .prox then .proximity else .inertial) ∧
      (l.filterMap SensorSlot.channel).Nodup := by
  have hdev : ∀ c : Channel, c.device = if c = .prox then .proximity else .inertial := fun c => by cases c <;> rfl
  unfold slotsValid
  rw [Bool.and_eq_true, List.all_eq_true, decide_eq_true_eq]
  refine and_congr (forall₂_congr fun x _ => ?_) Iff.rfl
  cases x.channel with
  | none => simp
  | some c => simp [hdev, eq_comm]

/-- The lists that pass Set Schedule's checks. -/
theorem slotListOf_iff (n : Nat) (bs : List Byte) (l : List SensorSlot) : slotListOf n bs = some l ↔
    n ≤ 12 ∧ parseSlots n bs = some l ∧ slotsValid l = true := by
  unfold slotListOf
  split
  · constructor
    · intro h
      cases h
    · omega
  · rw [Option.bind_eq_some_iff]
    constructor
    · rintro ⟨k, hk, he⟩
      split at he
      · cases he
        exact ⟨by omega, hk, ‹_›⟩
      · cases he
    · rintro ⟨-, hp, hv⟩
      exact ⟨l, hp, if_pos hv⟩

/-- The state that an accepted list leaves, but for messages, written out. -/
theorem State.scheduled_eq {s : State} {l : List SensorSlot} {p : Presence}
    (hp : p = presenceOf (s.smp.removed && hasProx l) s.smp.still) : s.scheduled l =
      if p = s.smp.presence then s.setSmp (s.smp.settled l p) else (s.setSmp (s.smp.settled l p)).updateCap := by
  have hx : (s.setSmp (s.smp.listed l)).presenceSettled = if p = s.smp.presence then s.setSmp (s.smp.listed l)
      else ((s.setSmp (s.smp.listed l)).setSmp { s.smp.listed l with presence := p }).updateCap := by
    rw [hp]
    rfl
  unfold State.scheduled
  rw [hx]
  by_cases h : p = s.smp.presence
  · rw [if_pos h, if_pos h]
    unfold Smp.settled
    rw [h]
    rfl
  · rw [if_neg h, if_neg h]
    rfl

/-- The next tick after a list has been applied. -/
theorem State.scheduled_tickAfter {s : State} {l old : List SensorSlot} {p : Presence}
    (hp : p = presenceOf (s.smp.removed && hasProx l) s.smp.still) : (s.scheduled l).tickAfter old =
      if l = [] then none
      else if old = [] ∧ s.cst.loading = false then
        some (s.osc + (s.setSmp (s.smp.settled l p)).rateInForce.period * 750)
      else s.smp.tickDue := by
  have same : (s.scheduled l).tickAfter old = (s.setSmp (s.smp.settled l p)).tickAfter old := by
    rw [State.scheduled_eq hp]
    split
    · rfl
    · rfl
  have hl : ∀ k : List SensorSlot, k.isEmpty = true ↔ k = [] := fun k => List.isEmpty_iff
  rw [same]
  unfold State.tickAfter
  simp only [Bool.and_eq_true, hl, Bool.not_eq_true']
  rfl

theorem PerDevice.dropped_inertial (f : PerDevice DeviceFault) (l : List SensorSlot) :
    f.dropped l .inertial = ⟨if hasDevice l .inertial then f.inertial else ⟨false, 0⟩, f.proximity⟩ := by
  unfold PerDevice.dropped
  split <;> rfl

/-- Settles O19: an accepted list's effect is `State.applySchedule_only`, its reports
`State.listApplied_reported`; the checks are `slotListOf_iff`. -/
theorem setScheduleReplacesList : Obligations.SetScheduleReplacesList := by
  refine ⟨?_, fun n bs l hl => ?_, fun tag ps s h => ?_⟩
  · intro tag n bs l s h hl hlist m has removed presence faults x loads due y z report
    rw [exec_setSchedule]
    have ha := setSchedule_applies (s := s.popRequest) hl hlist
    obtain ⟨t, ht, hm, hans⟩ := State.immediate_answers h ha (s.popRequest.listApplied_serial l)
    have hz : z = (s.popRequest.scheduled l).setSmp { (s.popRequest.scheduled l).smp with
        tickDue := (s.popRequest.scheduled l).tickAfter s.smp.slotList } := by
      have hp : presence = presenceOf (s.popRequest.smp.removed && hasProx l) s.popRequest.smp.still := rfl
      have hx : x = s.popRequest.setSmp (s.smp.settled l presence) := by
        unfold Smp.settled
        rw [PerDevice.dropped_both]
        rfl
      have hdue : due = (s.popRequest.scheduled l).tickAfter s.smp.slotList := by
        rw [State.scheduled_tickAfter hp]
        simp only [due]
        rw [hx]
        rfl
      rw [← hdue, State.scheduled_eq hp]
      simp only [z, y, hx]
      by_cases hpm : presence = m.presence
      · rw [if_pos hpm, if_pos (show presence = s.popRequest.smp.presence from hpm)]
        rfl
      · rw [if_neg hpm, if_neg (show ¬ presence = s.popRequest.smp.presence from hpm)]
        rfl
    have hrep := fun r : Report => State.immediate_outgoingReports (r := r) h ha ht
    refine ⟨t, ht, hz ▸ (s.popRequest.applySchedule_only l).trans hm, hans, fun hne hon => ?_, fun hd hf hon => ?_,
      fun hd hf hon => ?_⟩
    · exact (hrep _).mpr ((s.popRequest.listApplied_reported l hon).1 hne).reported
    · exact (hrep _).mpr ((s.popRequest.listApplied_reported l hon).2.1 hd hf).reported
    · have hr := (s.popRequest.listApplied_reported l hon).2.2 hd hf
      rw [PerDevice.dropped_inertial] at hr
      exact (hrep _).mpr hr.reported
  · rw [slotListOf_iff, parseSlots_iff, slotsValid_iff, channels_nodup_iff]
    simp only [parseSlot_iff, field_byte]
    constructor
    · rintro ⟨hn, ⟨hlen, hparse⟩, hdev, hnd⟩
      refine ⟨hn, hlen, fun i x hx => ?_, hnd⟩
      obtain ⟨h0, h1, h2⟩ := hparse i x hx
      exact ⟨h0, h1, h2, fun c hc => hdev x (List.mem_of_getElem? hx) c hc⟩
    · rintro ⟨hn, hlen, hslot, hnd⟩
      refine ⟨hn, ⟨hlen, fun i x hx => ?_⟩, fun x hx c hc => ?_, hnd⟩
      · obtain ⟨h0, h1, h2, -⟩ := hslot i x hx
        exact ⟨h0, h1, h2⟩
      · obtain ⟨i, hi⟩ := List.mem_iff_getElem?.mp hx
        obtain ⟨-, -, -, h3⟩ := hslot i x hi
        exact h3 c hc
  · intro refused
    constructor
    · intro hl
      show ∃ t, exec (.setSchedule tag ps) s = .next t ∧ _
      rw [exec_setSchedule]
      exact State.immediate_refused h (setSchedule_length hl)
    · intro hl hn
      show ∃ t, exec (.setSchedule tag ps) s = .next t ∧ _
      rw [exec_setSchedule]
      exact State.immediate_refused h (setSchedule_range hl hn)

end Sys2Proof.Machine
end

section
/-! The completion of a sample set (R27, R28, R30 to R36). -/

namespace Sys2Proof.Machine

/-! ## Messages that move leave a change of the state as it is -/

theorem OnlyMessages.withBits {s t : State} (h : OnlyMessages s t) (bits : BitVec 8) :
    OnlyMessages (s.withBits bits) (t.withBits bits) := by
  have hm : (t.withBits bits).mge = { (s.withBits bits).mge with
      replies := t.mge.replies, reports := t.mge.reports, nextSerial := t.mge.nextSerial
      outstanding := t.mge.outstanding, reportDrops := t.mge.reportDrops } := by
    show { t.mge with summary := t.mge.summary ||| bits } = _
    rw [h.mge]
    rfl
  exact { h with mge := hm }

theorem OnlyMessages.presenceSettled {s t : State} (h : OnlyMessages s t) :
    OnlyMessages s.presenceSettled t.presenceSettled := by
  unfold State.presenceSettled
  simp only [h.smp]
  split
  · exact h
  · have hx := h.mapSmp fun m => { m with presence := presenceOf s.smp.removed s.smp.still }
    rw [h.smp] at hx
    rw [State.updateCap_eq, State.updateCap_eq, hx.sco, hx.emissionCap]
    exact { hx with sco := rfl }

/-! ## Faults of the devices -/

/-- A device's fault state after a set that held a slot of it. -/
def DeviceFault.judged (f : DeviceFault) (failing : Bool) : DeviceFault :=
  if failing then
    if f.faulted then f else if 8 ≤ f.failing + 1 then ⟨true, 8⟩ else ⟨false, f.failing + 1⟩
  else ⟨false, 0⟩

/-- The set has the device enter its fault. -/
def DeviceFault.enters (f : DeviceFault) (failing : Bool) : Bool :=
  failing && !f.faulted && decide (8 ≤ f.failing + 1)

/-- The state with a device judged; what is left is the messages. -/
def State.faultJudged (s : State) (failing : Bool) (d : Device) : State :=
  let f := s.smp.faults.get d
  let t := s.setSmp { s.smp with
    faults := s.smp.faults.set d (f.judged failing)
    faultEntries := if f.enters failing then satInc s.smp.faultEntries else s.smp.faultEntries }
  if f.enters failing then t.withBits bitMotion else t

theorem PerDevice.set_get {α : Type} (p : PerDevice α) (d : Device) : p.set d (p.get d) = p := by
  cases d <;> rfl

theorem PerDevice.get_set {α : Type} (p : PerDevice α) (d e : Device) (a : α) :
    (p.set d a).get e = if e = d then a else p.get e := by
  cases d <;> cases e <;> rfl

/-- The judgement of a device, by what its fault state was. -/
theorem State.judgeFault_cases (s : State) (failing : Bool) (d : Device) :
    ((s.smp.faults.get d).enters failing = true ∧ s.judgeFault failing d =
      (((s.setSmp { s.smp with faults := s.smp.faults.set d ⟨true, 8⟩ }).setSummary bitMotion).setSmp
        { s.smp with
          faults := s.smp.faults.set d ⟨true, 8⟩
          faultEntries := satInc s.smp.faultEntries }).presenceReport 2 ∧
      (s.smp.faults.get d).judged failing = ⟨true, 8⟩) ∨
    ((s.smp.faults.get d).enters failing = false ∧ failing = false ∧ (s.smp.faults.get d).faulted = true ∧
      s.judgeFault failing d =
        (s.setSmp { s.smp with faults := s.smp.faults.set d ⟨false, 0⟩ }).presenceReport 3 ∧
      (s.smp.faults.get d).judged failing = ⟨false, 0⟩) ∨
    ((s.smp.faults.get d).enters failing = false ∧ (failing = false → (s.smp.faults.get d).faulted = false) ∧
      s.judgeFault failing d =
        s.setSmp { s.smp with faults := s.smp.faults.set d ((s.smp.faults.get d).judged failing) }) := by
  unfold State.judgeFault DeviceFault.enters DeviceFault.judged
  cases failing with
  | false =>
    cases hf : (s.smp.faults.get d).faulted with
    | false => exact .inr (.inr ⟨rfl, fun _ => rfl, by simp [hf]⟩)
    | true => exact .inr (.inl ⟨rfl, rfl, rfl, by simp [hf], by simp⟩)
  | true =>
    cases hf : (s.smp.faults.get d).faulted with
    | true =>
      refine .inr (.inr ⟨rfl, nofun, ?_⟩)
      simp only [hf, if_true, PerDevice.set_get]
      rfl
    | false =>
      by_cases h8 : 8 ≤ (s.smp.faults.get d).failing + 1
      · refine .inl ⟨by simp [h8], ?_, by simp [h8]⟩
        have hsmp := (State.setSummary_only (s.setSmp { s.smp with faults := s.smp.faults.set d ⟨true, 8⟩ })
          bitMotion).smp
        simp only [hf, if_true, Bool.false_eq_true, if_false, if_pos h8]
        rw [hsmp]
        rfl
      · exact .inr (.inr ⟨by simp [h8], nofun, by simp [hf, h8]⟩)

theorem State.judgeFault_only (s : State) (failing : Bool) (d : Device) :
    OnlyMessages (s.faultJudged failing d) (s.judgeFault failing d) := by
  unfold State.faultJudged
  rcases s.judgeFault_cases failing d with ⟨he, hj, hf⟩ | ⟨he, -, -, hj, hf⟩ | ⟨he, -, hj⟩
  · simp only [he, if_true, hj, hf]
    have h := (State.setSummary_only (s.setSmp { s.smp with faults := s.smp.faults.set d ⟨true, 8⟩ }) bitMotion).mapSmp
      fun _ => { s.smp with faults := s.smp.faults.set d ⟨true, 8⟩, faultEntries := satInc s.smp.faultEntries }
    exact h.trans (State.presenceReport_only _ _)
  · simp only [he, hj, hf, Bool.false_eq_true, if_false]
    exact State.presenceReport_only _ _
  · simp only [he, hj, Bool.false_eq_true, if_false]
    exact .refl _

theorem State.judgeFault_recent {s : State} {k : Nat} {r : Report} (h : s.recent k r) (hk : k < 7) (failing : Bool)
    (d : Device) : (s.judgeFault failing d).recent (k + 2) r := by
  rcases s.judgeFault_cases failing d with ⟨-, hj, -⟩ | ⟨-, -, -, hj, -⟩ | ⟨-, -, hj⟩ <;> rw [hj]
  · have h1 := State.setSummary_recent (s := s.setSmp { s.smp with faults := s.smp.faults.set d ⟨true, 8⟩ }) h
      (by omega) bitMotion
    refine State.presenceReport_recent ?_ (by omega) 2
    exact h1
  · have h1 : (s.setSmp { s.smp with faults := s.smp.faults.set d ⟨false, 0⟩ }).recent k r := h
    exact (State.presenceReport_recent h1 (by omega) 3).mono (Nat.le_succ _)
  · have h1 : (s.setSmp { s.smp with
      faults := s.smp.faults.set d ((s.smp.faults.get d).judged failing) }).recent k r := h
    exact h1.mono (by omega)

/-- A device's entry into its fault is reported with cause 2. -/
theorem State.judgeFault_entered {s : State} {failing : Bool} {d : Device}
    (he : (s.smp.faults.get d).enters failing = true) (hon : s.mge.enables.presence = true) :
    (s.judgeFault failing d).recent 1 ⟨.presence,
      Smp.presenceFields { s.smp with faults := s.smp.faults.set d ⟨true, 8⟩ } s.tas.now 2⟩ := by
  rcases s.judgeFault_cases failing d with ⟨-, hj, -⟩ | ⟨hn, -⟩ | ⟨hn, -⟩
  · have hm := State.setSummary_only (s.setSmp { s.smp with faults := s.smp.faults.set d ⟨true, 8⟩ }) bitMotion
    rw [hj]
    have h := State.presenceReport_new
      (s := ((s.setSmp { s.smp with faults := s.smp.faults.set d ⟨true, 8⟩ }).setSummary bitMotion).setSmp
        { s.smp with faults := s.smp.faults.set d ⟨true, 8⟩, faultEntries := satInc s.smp.faultEntries }) 2
      (by rw [State.setSmp_mge, hm.mge]; exact hon)
    rw [State.setSmp_tas, hm.tas] at h
    exact h
  · rw [he] at hn
    cases hn
  · rw [he] at hn
    cases hn

/-- A device's exit from its fault is reported with cause 3. -/
theorem State.judgeFault_cleared {s : State} {d : Device} (hf : (s.smp.faults.get d).faulted = true)
    (hon : s.mge.enables.presence = true) : (s.judgeFault false d).recent 1 ⟨.presence,
      Smp.presenceFields { s.smp with faults := s.smp.faults.set d ⟨false, 0⟩ } s.tas.now 3⟩ := by
  rcases s.judgeFault_cases false d with ⟨he, -⟩ | ⟨-, -, -, hj, -⟩ | ⟨-, hn, -⟩
  · cases he
  · rw [hj]
    exact State.presenceReport_new (s := s.setSmp { s.smp with faults := s.smp.faults.set d ⟨false, 0⟩ }) 3 hon
  · rw [hn rfl] at hf
    cases hf

/-! ## The devices that a set holds slots of -/

/-- The set held a slot of the device. -/
def SampleSet.holds (st : SampleSet) (d : Device) : Bool := st.slots.any fun x => decide (x.device = d)

theorem SampleSet.holds_iff (st : SampleSet) (d : Device) : st.holds d = true ↔ ∃ x ∈ st.slots, x.device = d := by
  simp [SampleSet.holds]

/-- The fault states after a set has judged a device. -/
def PerDevice.judgedBy (f : PerDevice DeviceFault) (st : SampleSet) (d : Device) : PerDevice DeviceFault :=
  if st.holds d then f.set d ((f.get d).judged (st.failing.get d)) else f

/-- The set has the device enter its fault. -/
def PerDevice.entersBy (f : PerDevice DeviceFault) (st : SampleSet) (d : Device) : Bool :=
  st.holds d && (f.get d).enters (st.failing.get d)

theorem PerDevice.entersBy_iff (f : PerDevice DeviceFault) (st : SampleSet) (d : Device) : f.entersBy st d = true ↔
    (∃ x ∈ st.slots, x.device = d) ∧ st.failing.get d = true ∧ (f.get d).faulted = false ∧
      8 ≤ (f.get d).failing + 1 := by
  rw [PerDevice.entersBy, Bool.and_eq_true, SampleSet.holds_iff]
  simp [DeviceFault.enters, and_assoc]

theorem PerDevice.get_judgedBy (f : PerDevice DeviceFault) (st : SampleSet) (d e : Device) :
    (f.judgedBy st d).get e =
      if e = d ∧ st.holds d then (f.get d).judged (st.failing.get d) else f.get e := by
  unfold PerDevice.judgedBy
  by_cases h : st.holds d = true
  · rw [if_pos h, PerDevice.get_set]
    simp only [h, and_true]
  · rw [if_neg h, if_neg fun hc => h hc.2]

/-- The state with a device judged by a set that may hold a slot of it. -/
def State.setJudged (s : State) (st : SampleSet) (d : Device) : State :=
  let t := s.setSmp { s.smp with
    faults := s.smp.faults.judgedBy st d
    faultEntries := if s.smp.faults.entersBy st d then satInc s.smp.faultEntries else s.smp.faultEntries }
  if s.smp.faults.entersBy st d then t.withBits bitMotion else t

theorem State.judgeSetFault_only (s : State) (st : SampleSet) (d : Device) :
    OnlyMessages (s.setJudged st d) (s.judgeSetFault st d) := by
  unfold State.setJudged State.judgeSetFault PerDevice.judgedBy PerDevice.entersBy
  change OnlyMessages _ (if st.holds d = true then _ else _)
  cases h : st.holds d with
  | true =>
    have hj := s.judgeFault_only (st.failing.get d) d
    simpa [State.faultJudged] using hj
  | false => exact OnlyMessages.refl s

theorem OnlyMessages.setJudged {s t : State} (h : OnlyMessages s t) (st : SampleSet) (d : Device) :
    OnlyMessages (s.setJudged st d) (t.setJudged st d) := by
  have hx := h.mapSmp fun m => { m with
    faults := m.faults.judgedBy st d
    faultEntries := if m.faults.entersBy st d then satInc m.faultEntries else m.faultEntries }
  unfold State.setJudged
  rw [h.smp] at hx ⊢
  cases he : s.smp.faults.entersBy st d with
  | true =>
    simp only [he] at hx ⊢
    exact hx.withBits bitMotion
  | false =>
    simp only [he] at hx ⊢
    exact hx

theorem State.judgeSetFault_recent {s : State} {k : Nat} {r : Report} (h : s.recent k r) (hk : k < 7) (st : SampleSet)
    (d : Device) : (s.judgeSetFault st d).recent (k + 2) r := by
  unfold State.judgeSetFault
  split
  · exact State.judgeFault_recent h hk _ _
  · exact h.mono (by omega)

theorem State.judgeSetFault_entered {s : State} {st : SampleSet} {d : Device}
    (he : s.smp.faults.entersBy st d = true) (hon : s.mge.enables.presence = true) :
    (s.judgeSetFault st d).recent 1 ⟨.presence,
      Smp.presenceFields { s.smp with faults := s.smp.faults.set d ⟨true, 8⟩ } s.tas.now 2⟩ := by
  obtain ⟨hh, he⟩ := Bool.and_eq_true_iff.mp he
  have e : s.judgeSetFault st d = s.judgeFault (st.failing.get d) d := if_pos hh
  rw [e]
  exact State.judgeFault_entered he hon

theorem State.judgeSetFault_cleared {s : State} {st : SampleSet} {d : Device} (hh : st.holds d = true)
    (hc : st.failing.get d = false) (hf : (s.smp.faults.get d).faulted = true)
    (hon : s.mge.enables.presence = true) : (s.judgeSetFault st d).recent 1 ⟨.presence,
      Smp.presenceFields { s.smp with faults := s.smp.faults.set d ⟨false, 0⟩ } s.tas.now 3⟩ := by
  have e : s.judgeSetFault st d = s.judgeFault (st.failing.get d) d := if_pos hh
  rw [e, hc]
  exact State.judgeFault_cleared hf hon

theorem State.setJudged_eq (s : State) (st : SampleSet) (d : Device) : s.setJudged st d =
    (s.setSmp { s.smp with
      faults := s.smp.faults.judgedBy st d
      faultEntries := if s.smp.faults.entersBy st d then satInc s.smp.faultEntries else s.smp.faultEntries }).setMge
      { s.mge with
        summary := if s.smp.faults.entersBy st d then s.mge.summary ||| bitMotion else s.mge.summary } := by
  unfold State.setJudged
  cases s.smp.faults.entersBy st d <;> rfl

/-- The presence state settled changes the Sampler's and, where it changes, the cap. -/
theorem State.presenceSettled_eq (s : State) : s.presenceSettled =
    (s.setSmp { s.smp with presence := presenceOf s.smp.removed s.smp.still }).setSco
      (if presenceOf s.smp.removed s.smp.still = s.smp.presence then s.sco
       else (s.setSmp { s.smp with presence := presenceOf s.smp.removed s.smp.still }).updateCap.sco) := by
  unfold State.presenceSettled
  simp only
  split
  · rename_i h
    rw [h]
    rfl
  · rfl

/-! ## Stillness and wear -/

theorem SampleRecord.isStill_iff (r : SampleRecord) (w : WearSettings) (previous : PerChannel (Option Int)) :
    r.isStill w previous = true ↔
      (∃ c ∈ [Channel.gx, .gy, .gz, .ax, .ay, .az], r.values.get c ≠ none) ∧
      (∀ c ∈ [Channel.gx, .gy, .gz, .ax, .ay, .az], ∀ v, r.values.get c = some v → v.stale = false) ∧
      (∀ c ∈ [Channel.gx, .gy, .gz], ∀ v, r.values.get c = some v → v.value.natAbs ≤ w.gyroThreshold) ∧
      ∀ c ∈ [Channel.ax, .ay, .az], ∀ v, r.values.get c = some v →
        ∃ p, previous.get c = some p ∧ (v.value - p).natAbs ≤ w.accelThreshold := by
  unfold SampleRecord.isStill rateChannels accelChannels
  rw [Bool.and_eq_true, Bool.and_eq_true, Bool.and_eq_true, List.any_eq_true, List.all_eq_true, List.all_eq_true,
    List.all_eq_true, and_assoc, and_assoc]
  refine and_congr (exists_congr fun c => and_congr Iff.rfl ?_) (and_congr (forall₂_congr fun c _ => ?_)
    (and_congr (forall₂_congr fun c _ => ?_) (forall₂_congr fun c _ => ?_)))
  · exact Option.isSome_iff_ne_none
  · cases r.values.get c with
    | none => simp
    | some v => simp
  · cases r.values.get c with
    | none => simp
    | some v => simp
  · cases r.values.get c with
    | none => simp
    | some v => cases previous.get c <;> simp

/-- The wear judgement touches the wear state and its runs alone. -/
theorem Smp.judgeWear_only (m : Smp) (r : SampleRecord) (n : Nat) : m.judgeWear r n = { m with
    removed := (m.judgeWear r n).removed
    removalRun := (m.judgeWear r n).removalRun
    returnRun := (m.judgeWear r n).returnRun } := by
  unfold Smp.judgeWear
  split
  · rfl
  · simp only
    split
    · rfl
    · split <;> rfl

theorem Smp.judgeWear_none {m : Smp} {r : SampleRecord} (n : Nat) (h : r.values.prox = none) : m.judgeWear r n = m := by
  unfold Smp.judgeWear
  rw [h]

/-- The run of removal, and that of return, after a record that holds PROX. -/
theorem Smp.wearRuns_eq (m : Smp) (v : ChannelValue) (n : Nat) : m.wearRuns v n =
    (if v.stale = false ∧ v.value < m.settings.wearThreshold then m.removalRun + n else 0,
      if v.stale = false ∧ ¬ v.value < m.settings.wearThreshold ∧
        m.settings.wearThreshold + m.settings.wearHysteresis < v.value then m.returnRun + n else 0) := by
  unfold Smp.wearRuns
  cases v.stale
  · by_cases h1 : v.value < m.settings.wearThreshold
    · simp [h1]
    · by_cases h2 : m.settings.wearThreshold + m.settings.wearHysteresis < v.value <;> simp [h1, h2]
  · simp

theorem Smp.judgeWear_some {m : Smp} {r : SampleRecord} {v : ChannelValue} (n : Nat) (h : r.values.prox = some v) :
    let runs := m.wearRuns v n
    (m.removed = false → 500000 ≤ runs.1 →
      m.judgeWear r n = { m with removed := true, removalRun := 0, returnRun := 0 }) ∧
    (m.removed = true → 500000 ≤ runs.2 →
      m.judgeWear r n = { m with removed := false, removalRun := 0, returnRun := 0 }) ∧
    ((m.removed = false ∧ runs.1 < 500000) ∨ (m.removed = true ∧ runs.2 < 500000) →
      m.judgeWear r n = { m with removalRun := runs.1, returnRun := runs.2 }) := by
  intro runs
  unfold Smp.judgeWear
  simp only [h]
  refine ⟨fun hm hr => if_pos ⟨hm, hr⟩, fun hm hr => ?_, fun hm => ?_⟩
  · exact (if_neg fun hc => by rw [hm] at hc; cases hc.1).trans (if_pos ⟨hm, hr⟩)
  · rcases hm with ⟨hm, hr⟩ | ⟨hm, hr⟩
    · exact (if_neg fun hc => absurd hc.2 (not_le.mpr hr)).trans (if_neg fun hc => by rw [hm] at hc; cases hc.1)
    · exact (if_neg fun hc => by rw [hm] at hc; cases hc.1).trans (if_neg fun hc => absurd hc.2 (not_le.mpr hr))

/-! ## The motion report of a full batch -/

/-- What a motion report offered leaves alone. -/
structure Beside (s t : State) : Prop where
  osc : t.osc = s.osc
  tas : t.tas = s.tas
  ori : t.ori = s.ori
  fri : t.fri = s.fri
  sco : t.sco = s.sco
  pmg : t.pmg = s.pmg
  cfl : t.cfl = s.cfl
  cst : t.cst = s.cst
  summary : t.mge.summary = s.mge.summary

theorem Beside.refl (s : State) : Beside s s := ⟨rfl, rfl, rfl, rfl, rfl, rfl, rfl, rfl, rfl⟩

theorem OnlyMessages.beside {s t : State} (h : OnlyMessages s t) : Beside s t :=
  ⟨h.osc, h.tas, h.ori, h.fri, h.sco, h.pmg, h.cfl, h.cst, by rw [h.mge]⟩

theorem Rch.motionSlot_some {r : Rch} {i : Fin 4} (h : r.motionSlot = some i) :
    r.slots[i].item.map Item.itemClass = some .motion := by simpa using List.find?_some h

theorem State.offerMotion_beside (s : State) (p : List Byte) :
    Beside s (s.offerMotion p) ∧ (s.offerMotion p).smp = s.smp := by
  have hpend : Beside s (s.setRch (s.rch.pend p)) := { Beside.refl s with }
  unfold State.offerMotion
  split
  · have h := State.place_only (s.setRch (s.rch.pend p))
    exact ⟨{ h.beside with }, h.smp⟩
  · split
    · exact ⟨{ Beside.refl s with }, rfl⟩
    · exact ⟨hpend, rfl⟩

theorem State.offerMotion_recent {s : State} {k : Nat} {r : Report} (h : s.recent k r) (p : List Byte) :
    (s.offerMotion p).recent k r := by
  have hpend : (s.setRch (s.rch.pend p)).recent k r := h
  unfold State.offerMotion
  split
  · exact State.place_recent hpend
  · rename_i i hi
    split
    · rcases h with ⟨j, hj⟩ | h
      · refine .inl ⟨j, ?_⟩
        show (s.rch.slots.set i _)[j].item = _
        rw [getSlot_set, if_neg]
        · exact hj
        · rintro rfl
          have hc := Rch.motionSlot_some hi
          rw [hj] at hc
          cases hc
      · exact .inr h
    · exact hpend

/-- A motion report offered is in a slot or pending. -/
theorem State.offerMotion_offered (s : State) (p : List Byte) : Item.motion p ∈ (s.offerMotion p).items := by
  have hpend : Item.motion p ∈ (s.setRch (s.rch.pend p)).items :=
    mem_items.mpr (.inr ⟨.motion, List.mem_map.mpr ⟨p, List.mem_singleton.mpr rfl, rfl⟩⟩)
  unfold State.offerMotion
  split
  · rw [State.place_items]
    exact hpend
  · rename_i i hi
    split
    · refine mem_items.mpr (.inl ⟨i, ?_⟩)
      show (s.rch.slots.set i (.occupied (.motion p)))[i].item = _
      rw [getSlot_set, if_pos rfl]
      rfl
    · exact hpend

/-- The batch after a record that joins it. -/
def State.joined (s : State) (r : SampleRecord) : List BatchEntry :=
  s.smp.batch ++ [⟨r, s.ori.yaw, s.ori.pitch, s.ori.roll⟩]

theorem State.joinBatch_beside (s : State) (r : SampleRecord) : Beside s (s.joinBatch r) ∧
    (s.joinBatch r).smp = { s.smp with
      batch := if s.smp.reporting then (if s.smp.batchSize ≤ (s.joined r).length then [] else s.joined r)
        else s.smp.batch } := by
  unfold State.joinBatch State.joined
  cases hr : s.smp.reporting with
  | false => exact ⟨.refl s, rfl⟩
  | true =>
    simp only [if_true]
    split
    · obtain ⟨hb, hs⟩ := State.offerMotion_beside (s.setSmp { s.smp with batch := [] })
        (motionReport (s.smp.batch ++ [⟨r, s.ori.yaw, s.ori.pitch, s.ori.roll⟩]))
      exact ⟨{ hb with }, hs⟩
    · exact ⟨{ Beside.refl s with }, rfl⟩

theorem State.joinBatch_recent {s : State} {k : Nat} {q : Report} (h : s.recent k q) (r : SampleRecord) :
    (s.joinBatch r).recent k q := by
  unfold State.joinBatch
  split
  · simp only
    split
    · refine State.offerMotion_recent ?_ _
      exact h
    · exact h
  · exact h

theorem State.joinBatch_offered {s : State} {r : SampleRecord} (hr : s.smp.reporting = true)
    (hl : s.smp.batchSize ≤ s.smp.batch.length + 1) : Item.motion (motionReport (s.joined r)) ∈ (s.joinBatch r).items := by
  unfold State.joinBatch
  rw [if_pos hr]
  simp only
  rw [if_pos (by simpa using hl)]
  exact State.offerMotion_offered _ _

/-! ## A set completes -/

/-- Both devices judged by a set. -/
def PerDevice.judgedBoth (f : PerDevice DeviceFault) (st : SampleSet) : PerDevice DeviceFault :=
  (f.judgedBy st .inertial).judgedBy st .proximity

theorem PerDevice.get_judgedBoth (f : PerDevice DeviceFault) (st : SampleSet) (d : Device) :
    (f.judgedBoth st).get d = if st.holds d then (f.get d).judged (st.failing.get d) else f.get d := by
  unfold PerDevice.judgedBoth
  cases d with
  | inertial => simp [PerDevice.get_judgedBy]
  | proximity => simp [PerDevice.get_judgedBy]

theorem PerDevice.entersBy_proximity (f : PerDevice DeviceFault) (st : SampleSet) :
    (f.judgedBy st .inertial).entersBy st .proximity = f.entersBy st .proximity := by
  simp [PerDevice.entersBy, PerDevice.get_judgedBy]

/-- The Sampler with the record stored and the devices judged. -/
def Smp.setStored (m : Smp) (st : SampleSet) : Smp :=
  { m with
    ring := push64 (if (nextSeq m.lastSeq).2 then [] else m.ring) (m.recordOf st)
    lastSeq := (m.recordOf st).seq, skipped := 0, set := none
    faults := m.faults.judgedBoth st
    faultEntries := satAdd m.faultEntries
      ([Device.inertial, .proximity].filter fun d => m.faults.entersBy st d).length }

/-- The Sampler after a set, but for the presence state and the batch. -/
def Smp.afterSet (m : Smp) (st : SampleSet) : Smp :=
  ((m.setStored st).judgeStill (m.recordOf st) st.period).judgeWear (m.recordOf st) st.period

/-- The state with the record stored and the devices judged; what is left is the messages. -/
def State.setTaken (u : State) (st : SampleSet) : State :=
  ((u.storeRecord (u.smp.recordOf st)).setJudged st .inertial).setJudged st .proximity

/-- The summary after the devices are judged. -/
def State.summaryAfter (u : State) (st : SampleSet) : BitVec 8 :=
  if u.smp.faults.entersBy st .inertial || u.smp.faults.entersBy st .proximity then u.mge.summary ||| bitMotion
  else u.mge.summary

theorem satAdd_devices (n : Count) (p : Device → Bool) : satAdd n ([Device.inertial, .proximity].filter p).length =
    if p .proximity then satInc (if p .inertial then satInc n else n) else if p .inertial then satInc n else n := by
  cases hi : p .inertial <;> cases hp : p .proximity <;> simp [hi, hp, satAdd]

/-- Bits set by one judgement or by both are set once. -/
theorem bits_or_twice (a b : Bool) (x y : BitVec 8) : (if a || b then x ||| y else x) =
    if b then (if a then x ||| y else x) ||| y else if a then x ||| y else x := by
  cases a <;> cases b <;> simp [BitVec.or_assoc]

theorem State.setTaken_eq (u : State) (st : SampleSet) : u.setTaken st =
    ((u.setSmp (u.smp.setStored st)).setOri
      (u.ori.integrate (u.smp.recordOf st) (nextSeq u.smp.lastSeq).2)).setMge
        { u.mge with summary := u.summaryAfter st } := by
  unfold State.setTaken State.summaryAfter Smp.setStored
  rw [State.setJudged_eq, State.setJudged_eq, satAdd_devices, bits_or_twice]
  simp only [State.setMge_smp, State.setMge_mge, State.setSmp_smp, State.storeRecord, State.setOri_smp,
    PerDevice.entersBy_proximity, PerDevice.judgedBoth, State.setOri_mge, State.setSmp_mge]
  rfl

/-- The state after a set, but for messages and the batch. -/
def State.setSettled (u : State) (st : SampleSet) : State :=
  ((u.setTaken st).setSmp (u.smp.afterSet st)).presenceSettled

/-- The state after a set, its messages included, before the record joins the batch. -/
def State.setReported (u : State) (st : SampleSet) : State :=
  let s2 := ((u.storeRecord (u.smp.recordOf st)).judgeSetFault st .inertial).judgeSetFault st .proximity
  (s2.setSmp ((s2.smp.judgeStill (u.smp.recordOf st) st.period).judgeWear (u.smp.recordOf st)
    st.period)).settlePresence

theorem State.completeSet_eq (u : State) (st : SampleSet) :
    u.completeSet st = (u.setReported st).joinBatch (u.smp.recordOf st) := rfl

theorem State.setReported_only (u : State) (st : SampleSet) : OnlyMessages (u.setSettled st) (u.setReported st) := by
  have h := (State.judgeSetFault_only (u.storeRecord (u.smp.recordOf st)) st .inertial).setJudged st .proximity
  have h2 := h.trans (State.judgeSetFault_only _ st .proximity)
  have h3 := h2.mapSmp fun m => (m.judgeStill (u.smp.recordOf st) st.period).judgeWear (u.smp.recordOf st) st.period
  have hs : (((u.storeRecord (u.smp.recordOf st)).setJudged st .inertial).setJudged st .proximity).smp =
      u.smp.setStored st := by
    have e := congrArg State.smp (u.setTaken_eq st)
    exact e
  rw [hs] at h3
  exact h3.presenceSettled.trans (State.settlePresence_only _)

/-- The set's reports, each still on its way when the record has joined the batch. -/
theorem State.completeSet_reported {u : State} {st : SampleSet} (hon : u.mge.enables.presence = true) :
    let m := u.smp
    let after := m.faults.judgedBy st .inertial
    (m.faults.entersBy st .inertial = true → Reported (u.completeSet st) .presence
      (Smp.presenceFields { m with faults := m.faults.set .inertial ⟨true, 8⟩ } u.tas.now 2)) ∧
    (st.holds .inertial = true → st.failing.get .inertial = false → m.faults.inertial.faulted = true →
      Reported (u.completeSet st) .presence
        (Smp.presenceFields { m with faults := m.faults.set .inertial ⟨false, 0⟩ } u.tas.now 3)) ∧
    (m.faults.entersBy st .proximity = true → Reported (u.completeSet st) .presence
      (Smp.presenceFields { m with faults := after.set .proximity ⟨true, 8⟩ } u.tas.now 2)) ∧
    (st.holds .proximity = true → st.failing.get .proximity = false → m.faults.proximity.faulted = true →
      Reported (u.completeSet st) .presence
        (Smp.presenceFields { m with faults := after.set .proximity ⟨false, 0⟩ } u.tas.now 3)) := by
  intro m after
  have first : ∀ r : Report, ((u.storeRecord (u.smp.recordOf st)).judgeSetFault st .inertial).recent 1 r →
      (((u.storeRecord (u.smp.recordOf st)).judgeSetFault st .inertial).judgeSetFault st .proximity).recent 3 r :=
    fun r h => State.judgeSetFault_recent h (by omega) st .proximity
  have last : ∀ (k : ReportKind) (f : List Byte),
      (((u.storeRecord (u.smp.recordOf st)).judgeSetFault st .inertial).judgeSetFault st .proximity).recent 3 ⟨k, f⟩ →
      Reported (u.completeSet st) k f := fun k f h => by
    rw [State.completeSet_eq]
    refine State.recent.reported (k := 4) (State.joinBatch_recent ?_ _)
    unfold State.setReported
    refine State.settlePresence_recent (k := 3) ?_ (by omega)
    exact h
  have h1 := State.judgeSetFault_only (u.storeRecord (u.smp.recordOf st)) st .inertial
  rw [State.setJudged_eq] at h1
  have hon1 : ((u.storeRecord (u.smp.recordOf st)).judgeSetFault st .inertial).mge.enables.presence = true := by
    rw [h1.mge]
    exact hon
  have hf1 : ((u.storeRecord (u.smp.recordOf st)).judgeSetFault st .inertial).smp.faults = after := by
    rw [h1.smp]
    rfl
  have hprox : after.get .proximity = m.faults.proximity := by
    simp only [after, PerDevice.get_judgedBy]
    rfl
  refine ⟨fun he => last _ _ (first _ (State.judgeSetFault_entered he hon)),
    fun hh hc hf => last _ _ (first _ (State.judgeSetFault_cleared hh hc hf hon)), fun he => ?_, fun hh hc hf => ?_⟩
  · have hr := State.judgeSetFault_entered (s := (u.storeRecord (u.smp.recordOf st)).judgeSetFault st .inertial)
      (st := st) (d := .proximity) (by rw [hf1, PerDevice.entersBy_proximity]; exact he) hon1
    rw [h1.smp, h1.tas] at hr
    exact last _ _ (hr.mono (by omega))
  · have hr := State.judgeSetFault_cleared (s := (u.storeRecord (u.smp.recordOf st)).judgeSetFault st .inertial) hh hc
      (by rw [hf1, hprox]; exact hf) hon1
    rw [h1.smp, h1.tas] at hr
    exact last _ _ (hr.mono (by omega))

end Sys2Proof.Machine
end

section
/-! The last read of a set (2.4, 2.6 to 2.8, 3.4). -/

namespace Sys2Proof.Machine

/-! ## The record -/

theorem Smp.recordOf_get (m : Smp) (st : SampleSet) (c : Channel) :
    (m.recordOf st).values.get c = recordValue (m.held.get c) (st.readings.get c) := by
  cases c <;> rfl

theorem nextSeq_eq (n : Seq) :
    nextSeq n = (if n = BitVec.allOnes 32 then 1 else n + 1, decide (n = BitVec.allOnes 32)) := by
  unfold nextSeq
  by_cases h : n = BitVec.allOnes 32
  · rw [if_pos h, if_pos h, decide_eq_true h]
  · rw [if_neg h, if_neg h, decide_eq_false h]

/-! ## The Sampler after a set, piece by piece -/

section afterSet
variable (m : Smp) (st : SampleSet)

/-- The Sampler after its stillness is judged and before its wear state is. -/
def Smp.stillJudged : Smp := (m.setStored st).judgeStill (m.recordOf st) st.period

theorem Smp.afterSet_eq : m.afterSet st = { m.stillJudged st with
    removed := (m.afterSet st).removed
    removalRun := (m.afterSet st).removalRun
    returnRun := (m.afterSet st).returnRun } := (m.stillJudged st).judgeWear_only (m.recordOf st) st.period

theorem Smp.afterSet_still_faults : (m.afterSet st).faults = m.faults.judgedBoth st ∧
    (m.afterSet st).still = (m.stillJudged st).still ∧ (m.afterSet st).stillTime = (m.stillJudged st).stillTime ∧
    (m.afterSet st).previous = (m.recordOf st).previous := by
  rw [Smp.afterSet_eq]
  exact ⟨rfl, rfl, rfl, rfl⟩

theorem Smp.afterSet_rest : (m.afterSet st).ring = (m.setStored st).ring ∧
    (m.afterSet st).lastSeq = (m.recordOf st).seq ∧ (m.afterSet st).skipped = 0 ∧ (m.afterSet st).set = none ∧
    (m.afterSet st).faultEntries = (m.setStored st).faultEntries ∧ (m.afterSet st).slotList = m.slotList ∧
    (m.afterSet st).tickDue = m.tickDue ∧ (m.afterSet st).held = m.held ∧ (m.afterSet st).settings = m.settings ∧
    (m.afterSet st).failedReads = m.failedReads ∧ (m.afterSet st).saturatedValues = m.saturatedValues := by
  rw [Smp.afterSet_eq]
  exact ⟨rfl, rfl, rfl, rfl, rfl, rfl, rfl, rfl, rfl, rfl, rfl⟩

theorem Smp.afterSet_presence : (m.afterSet st).presence = m.presence := by
  rw [Smp.afterSet_eq]
  rfl

theorem SampleRecord.previous_get (r : SampleRecord) {c : Channel} (h : c ∈ [Channel.ax, .ay, .az]) :
    r.previous.get c = (r.values.get c).map ChannelValue.value := by
  simp only [List.mem_cons, List.not_mem_nil, or_false] at h
  rcases h with rfl | rfl | rfl <;> rfl

theorem Smp.stillJudged_time : (m.stillJudged st).stillTime =
    if (m.recordOf st).isStill m.settings m.previous then
      min (m.stillTime + st.period) (m.settings.stillDelay * 1000000) else 0 := rfl

theorem Smp.stillJudged_still : (m.stillJudged st).still =
    if m.still then (m.recordOf st).isStill m.settings m.previous
    else decide (m.settings.stillDelay * 1000000 ≤ (m.stillJudged st).stillTime) := rfl

end afterSet

/-! ## The state after a set -/

section setSettled
variable (u : State) (st : SampleSet)

/-- What a completed set leaves, but for messages and the batch, written out. -/
theorem State.setSettled_eq : u.setSettled st =
    ((((u.setSmp { u.smp.afterSet st with
        presence := presenceOf (u.smp.afterSet st).removed (u.smp.afterSet st).still }).setOri
      (u.ori.integrate (u.smp.recordOf st) (nextSeq u.smp.lastSeq).2)).setMge
        { u.mge with summary := u.summaryAfter st })).setSco
      (if presenceOf (u.smp.afterSet st).removed (u.smp.afterSet st).still = u.smp.presence then u.sco
       else (u.setSmp { u.smp.afterSet st with
         presence := presenceOf (u.smp.afterSet st).removed (u.smp.afterSet st).still }).updateCap.sco) := by
  unfold State.setSettled
  rw [State.presenceSettled_eq, State.setTaken_eq]
  simp only [State.setSmp_smp, Smp.afterSet_presence]
  rfl

/-- What the set's completion leaves: the Sampler, and what lies beside it. -/
theorem State.completeSet_frame : Beside (u.setSettled st) (u.completeSet st) ∧
    (u.completeSet st).smp = { u.smp.afterSet st with
      presence := presenceOf (u.smp.afterSet st).removed (u.smp.afterSet st).still
      batch := if u.smp.reporting then
          (if u.smp.batchSize ≤ u.smp.batch.length + 1 then [] else u.smp.batch ++
            [⟨u.smp.recordOf st, (u.completeSet st).ori.yaw, (u.completeSet st).ori.pitch,
              (u.completeSet st).ori.roll⟩])
        else u.smp.batch } := by
  have hm := u.setReported_only st
  obtain ⟨hb, hs⟩ := State.joinBatch_beside (u.setReported st) (u.smp.recordOf st)
  rw [← State.completeSet_eq] at hb hs
  have hsmp : (u.setReported st).smp = { u.smp.afterSet st with
      presence := presenceOf (u.smp.afterSet st).removed (u.smp.afterSet st).still } := by
    rw [hm.smp, State.setSettled_eq]
    rfl
  have hbatch : (u.setReported st).smp.batch = u.smp.batch ∧ (u.setReported st).smp.reporting = u.smp.reporting ∧
      (u.setReported st).smp.batchSize = u.smp.batchSize := by
    rw [hsmp, Smp.afterSet_eq]
    exact ⟨rfl, rfl, rfl⟩
  refine ⟨?_, hs.trans ?_⟩
  · have hx := hm.beside
    exact ⟨hb.osc.trans hx.osc, hb.tas.trans hx.tas, hb.ori.trans hx.ori, hb.fri.trans hx.fri, hb.sco.trans hx.sco,
      hb.pmg.trans hx.pmg, hb.cfl.trans hx.cfl, hb.cst.trans hx.cst, hb.summary.trans hx.summary⟩
  · unfold State.joined
    rw [hbatch.1, hbatch.2.1, hbatch.2.2, hb.ori, hsmp, List.length_append, List.length_singleton]

/-- A batch made full is on its way as a motion report. -/
theorem State.completeSet_offered {u : State} {st : SampleSet} (hr : u.smp.reporting = true)
    (hl : u.smp.batchSize ≤ u.smp.batch.length + 1) : Item.motion (motionReport (u.smp.batch ++
      [⟨u.smp.recordOf st, (u.completeSet st).ori.yaw, (u.completeSet st).ori.pitch, (u.completeSet st).ori.roll⟩])) ∈
        (u.completeSet st).items := by
  have hm := u.setReported_only st
  have hsmp : (u.setReported st).smp.batch = u.smp.batch ∧ (u.setReported st).smp.reporting = u.smp.reporting ∧
      (u.setReported st).smp.batchSize = u.smp.batchSize := by
    rw [hm.smp, State.setSettled_eq]
    simp only [State.setSco_smp, State.setMge_smp, State.setOri_smp, State.setSmp_smp]
    rw [Smp.afterSet_eq]
    exact ⟨rfl, rfl, rfl⟩
  have h := State.joinBatch_offered (s := u.setReported st) (r := u.smp.recordOf st) (by rw [hsmp.2.1]; exact hr)
    (by rw [hsmp.1, hsmp.2.2]; exact hl)
  have hori := (State.joinBatch_beside (u.setReported st) (u.smp.recordOf st)).1.ori
  unfold State.joined at h
  rw [hsmp.1, ← hori] at h
  exact h

/-- The change of the presence state is reported, and the report still on its way. -/
theorem State.completeSet_presenceReported {u : State} {st : SampleSet} (hon : u.mge.enables.presence = true)
    (hne : presenceOf (u.smp.afterSet st).removed (u.smp.afterSet st).still ≠ u.smp.presence) :
    Reported (u.completeSet st) .presence (Smp.presenceFields { u.smp.afterSet st with
      presence := presenceOf (u.smp.afterSet st).removed (u.smp.afterSet st).still } u.tas.now 1) := by
  rw [State.completeSet_eq]
  refine State.recent.reported (k := 1) (State.joinBatch_recent ?_ _)
  have h := (State.judgeSetFault_only (u.storeRecord (u.smp.recordOf st)) st .inertial).setJudged st .proximity
  have h2 := h.trans (State.judgeSetFault_only _ st .proximity)
  have h3 : OnlyMessages (u.setTaken st) _ := h2
  rw [State.setTaken_eq] at h3
  have hsmp := h3.smp
  have hmge := h3.mge
  have htas := h3.tas
  unfold State.setReported
  simp only
  rw [hsmp]
  have hr := State.settlePresence_reported
    (s := (((u.storeRecord (u.smp.recordOf st)).judgeSetFault st .inertial).judgeSetFault st .proximity).setSmp
      (u.smp.afterSet st)) (by
        simp only [State.setSmp_smp, Smp.afterSet_presence]
        exact hne) (by
        rw [State.setSmp_mge, hmge]
        exact hon)
  rw [State.setSmp_tas, htas] at hr
  exact hr

end setSettled

/-! ## The wear state -/

/-- The wear state and its runs after a record that holds PROX. -/
theorem Smp.afterSet_wear {m : Smp} {st : SampleSet} {v : ChannelValue} (h : (m.recordOf st).values.prox = some v) :
    let away := if v.stale = false ∧ v.value < m.settings.wearThreshold then m.removalRun + st.period else 0
    let back := if v.stale = false ∧ m.settings.wearThreshold + m.settings.wearHysteresis < v.value
      then m.returnRun + st.period else 0
    (m.removed = false → 500000 ≤ away → (m.afterSet st).removed = true ∧ (m.afterSet st).removalRun = 0 ∧
      (m.afterSet st).returnRun = 0) ∧
    (m.removed = true → 500000 ≤ back → (m.afterSet st).removed = false ∧ (m.afterSet st).removalRun = 0 ∧
      (m.afterSet st).returnRun = 0) ∧
    ((m.removed = false ∧ away < 500000) ∨ (m.removed = true ∧ back < 500000) →
      (m.afterSet st).removed = m.removed ∧ (m.afterSet st).removalRun = away ∧ (m.afterSet st).returnRun = back) := by
  intro away back
  have hruns : (m.stillJudged st).wearRuns v st.period = (away, back) := by
    rw [Smp.wearRuns_eq]
    refine Prod.ext rfl (if_congr (and_congr_right fun _ => ⟨And.right, fun h => ⟨?_, h⟩⟩) rfl rfl)
    have h' : m.settings.wearThreshold + m.settings.wearHysteresis < v.value := h
    show ¬ v.value < m.settings.wearThreshold
    omega
  have hj := Smp.judgeWear_some (m := m.stillJudged st) st.period h
  rw [hruns] at hj
  obtain ⟨h1, h2, h3⟩ := hj
  refine ⟨fun hm hr => ?_, fun hm hr => ?_, fun hr => ?_⟩
  · have e : m.afterSet st = _ := h1 hm hr
    rw [e]
    exact ⟨rfl, rfl, rfl⟩
  · have e : m.afterSet st = _ := h2 hm hr
    rw [e]
    exact ⟨rfl, rfl, rfl⟩
  · have e : m.afterSet st = _ := h3 hr
    rw [e]
    exact ⟨rfl, rfl, rfl⟩

/-! ## The faults -/

theorem DeviceFault.judged_failing {f : DeviceFault} (h : f.faulted = false) :
    f.judged true = if 8 ≤ f.failing + 1 then ⟨true, 8⟩ else ⟨false, f.failing + 1⟩ := by
  unfold DeviceFault.judged
  simp [h]

theorem DeviceFault.judged_faulted {f : DeviceFault} (h : f.faulted = true) : f.judged true = f := by
  unfold DeviceFault.judged
  simp [h]

/-- MOTION is set just where a device enters its fault. -/
theorem State.summaryAfter_enters {u : State} {st : SampleSet} {d : Device} (h : u.smp.faults.entersBy st d = true) :
    u.summaryAfter st &&& bitMotion = bitMotion := by
  have hor : (u.smp.faults.entersBy st .inertial || u.smp.faults.entersBy st .proximity) = true := by
    cases d with
    | inertial => rw [h, Bool.true_or]
    | proximity => rw [h, Bool.or_true]
  unfold State.summaryAfter
  rw [if_pos hor]
  ext i hi
  simp only [BitVec.getElem_and, BitVec.getElem_or]
  cases (bitMotion)[i] <;> simp

theorem State.summaryAfter_none {u : State} {st : SampleSet} (h : ∀ d, u.smp.faults.entersBy st d = false) :
    u.summaryAfter st = u.mge.summary := by
  unfold State.summaryAfter
  rw [h, h]
  rfl

/-! ## The last read -/

theorem State.nextRead_last {s : State} {st : SampleSet} {x : SensorSlot} (ends : Nat) (h : st.todo = [x]) :
    s.nextRead st ends = s.completeSet st := by
  unfold State.nextRead
  rw [h]
  rfl

theorem State.failedRead_none {s : State} {st : SampleSet} {x : SensorSlot} (h : x.channel = none) :
    s.failedRead st x = (s.setSmp { s.smp with
      failedReads := s.smp.failedReads.set x.device (satInc (s.smp.failedReads.get x.device)) },
      { st with failing := st.failing.set x.device true }) := by
  unfold State.failedRead
  rw [h]

theorem State.failedRead_channel {s : State} {st : SampleSet} {x : SensorSlot} {c : Channel} (h : x.channel = some c) :
    s.failedRead st x = (s.setSmp { s.smp with
      failedReads := s.smp.failedReads.set x.device (satInc (s.smp.failedReads.get x.device)) },
      { st with failing := st.failing.set x.device true, readings := st.readings.set c .failed }) := by
  unfold State.failedRead
  rw [h]

/-- Settles O23. The set's completion is the same whatever its last read was; its parts are the lemmas above. -/
theorem lastReadCompletesSet : Obligations.LastReadCompletesSet := by
  unfold Obligations.LastReadCompletesSet
  intro motion completes s st x hp hs ht
  have done : ∀ (u : State) (st : SampleSet), completes u st (.next (u.completeSet st)) := by
    intro u st
    obtain ⟨hb, hsmp⟩ := u.completeSet_frame st
    rw [State.setSettled_eq] at hb
    obtain ⟨hfaults, hjst, hjtime, hjprev⟩ := u.smp.afterSet_still_faults st
    obtain ⟨hring, hlast, hskip, hset, hentries, hslots, htick, hheld, hsettings, hfailed, hsat⟩ :=
      u.smp.afterSet_rest st
    have hinertial : (u.smp.faults.judgedBoth st).inertial = (u.smp.faults.judgedBy st .inertial).inertial := by
      have h := PerDevice.get_judgedBy (u.smp.faults.judgedBy st .inertial) st .proximity .inertial
      exact h.trans (if_neg fun hc => absurd hc.1 (by decide))
    have htf : (u.completeSet st).smp.faults = u.smp.faults.judgedBoth st := by rw [hsmp]; exact hfaults
    refine ⟨u.completeSet st, u.smp.recordOf st, rfl, ?_, rfl, rfl, fun c => ?_, ?_, ?_, ?_, ?_, ?_,
      fun d => ⟨fun hno => ?_, fun hh => ⟨fun hf => ?_, fun hf hd => ?_, fun hf hd h8 => ?_⟩, fun he => ⟨?_, ?_⟩⟩,
      ?_, fun hno => ?_, fun hon => ⟨fun he => ?_, fun hc => ?_, fun he => ?_, fun hc => ?_⟩,
      fun hi => ?_, fun hi => ?_, fun hm => ?_, fun hm => ?_, fun c hc => ?_,
      fun hn => ?_, fun v hv => ?_, ?_, fun he => ?_, fun hne => ?_, fun hr => ?_, fun hr hl => ?_, fun hr hl => ?_,
      ?_, ?_, ?_, ?_, ?_, ?_, hb.tas, hb.osc, hb.fri, hb.pmg, hb.cfl, hb.cst⟩
    · exact congrArg Prod.fst (nextSeq_eq _)
    · rw [Smp.recordOf_get]
      cases st.readings.get c <;> rfl
    · rw [hsmp]
      refine hring.trans ?_
      unfold Smp.setStored
      simp only [nextSeq_eq, decide_eq_true_eq]
    · rw [hsmp]
      exact hlast
    · rw [hsmp]
      exact hskip
    · rw [hsmp]
      exact hset
    · rw [hb.ori]
      exact congrArg (fun p : Seq × Bool => u.ori.integrate (u.smp.recordOf st) p.2) (nextSeq_eq u.smp.lastSeq)
    · rw [htf, PerDevice.get_judgedBoth, if_neg]
      rw [SampleSet.holds_iff]
      exact fun ⟨x, hx, he⟩ => hno x hx he
    · rw [htf, PerDevice.get_judgedBoth, if_pos ((st.holds_iff d).mpr hh), hf]
      rfl
    · rw [htf, PerDevice.get_judgedBoth, if_pos ((st.holds_iff d).mpr hh), hf, DeviceFault.judged_faulted hd]
    · rw [htf, PerDevice.get_judgedBoth, if_pos ((st.holds_iff d).mpr hh), hf, DeviceFault.judged_failing hd,
        if_neg (not_le.mpr h8)]
    · obtain ⟨hh, hf, hd, h8⟩ := he
      rw [htf, PerDevice.get_judgedBoth, if_pos ((st.holds_iff d).mpr hh), hf, DeviceFault.judged_failing hd, if_pos h8]
    · rw [hb.summary]
      exact State.summaryAfter_enters ((PerDevice.entersBy_iff _ _ _).mpr he)
    · rw [hsmp]
      refine hentries.trans ?_
      unfold Smp.setStored
      simp only
      congr 2
      refine List.filter_congr fun d _ => Bool.eq_iff_iff.mpr ?_
      rw [PerDevice.entersBy_iff, decide_eq_true_eq]
    · rw [hb.summary]
      exact State.summaryAfter_none fun d => by
        rw [← Bool.not_eq_true, PerDevice.entersBy_iff]
        exact hno d
    · exact (State.completeSet_reported hon).1 ((PerDevice.entersBy_iff _ _ _).mpr he)
    · obtain ⟨hh, hf, hd⟩ := hc
      exact (State.completeSet_reported hon).2.1 ((st.holds_iff _).mpr hh) hf hd
    · rw [htf, hinertial]
      exact (State.completeSet_reported hon).2.2.1 ((PerDevice.entersBy_iff _ _ _).mpr he)
    · obtain ⟨hh, hf, hd⟩ := hc
      rw [htf, hinertial]
      exact (State.completeSet_reported hon).2.2.2 ((st.holds_iff _).mpr hh) hf hd
    · rw [hsmp]
      refine hjtime.trans ((u.smp.stillJudged_time st).trans (if_pos ?_))
      exact (SampleRecord.isStill_iff _ _ _).mpr hi
    · rw [hsmp]
      refine hjtime.trans ((u.smp.stillJudged_time st).trans (if_neg ?_))
      rw [SampleRecord.isStill_iff]
      exact hi
    · rw [hsmp]
      show (u.smp.afterSet st).still = true ↔ _
      rw [hjst, Smp.stillJudged_still, hm, if_pos rfl, SampleRecord.isStill_iff]
    · rw [hsmp]
      show (u.smp.afterSet st).still = true ↔ u.smp.settings.stillDelay * 1000000 ≤ (u.smp.afterSet st).stillTime
      rw [hjst, hjtime, Smp.stillJudged_still, hm, if_neg (by decide), decide_eq_true_eq]
    · rw [hsmp]
      show (u.smp.afterSet st).previous.get c = _
      rw [hjprev, SampleRecord.previous_get _ hc]
    · rw [hsmp]
      have e : u.smp.afterSet st = u.smp.stillJudged st := Smp.judgeWear_none st.period hn
      simp only [e]
      exact ⟨rfl, rfl, rfl⟩
    · rw [hsmp]
      exact Smp.afterSet_wear hv
    · rw [hsmp]
      rfl
    · rw [hb.sco]
      rw [hsmp] at he
      exact if_pos he
    · rw [hsmp] at hne
      refine ⟨?_, fun hon => ?_⟩
      · have hcap : (u.completeSet st).emissionCap = (u.setSmp { u.smp.afterSet st with
            presence := presenceOf (u.smp.afterSet st).removed (u.smp.afterSet st).still }).emissionCap := by
          unfold State.emissionCap State.presenceCap
          rw [hb.pmg, hsmp]
          rfl
        rw [hb.sco, hcap]
        exact if_neg hne
      · rw [hsmp]
        exact State.completeSet_presenceReported hon hne
    · rw [hsmp]
      exact if_neg (by rw [hr]; decide)
    · rw [hsmp]
      exact (if_pos hr).trans (if_neg (not_le.mpr hl))
    · refine ⟨?_, State.completeSet_offered hr hl⟩
      rw [hsmp]
      exact (if_pos hr).trans (if_pos hl)
    all_goals rw [hsmp]
    · exact hslots
    · exact htick
    · exact hheld
    · exact hsettings
    · exact hfailed
    · exact hsat
  refine ⟨fun word ready hr => ⟨fun hc => ?_, fun c hc => ?_⟩, fun hr => ⟨fun hc => ?_, fun c hc => ?_⟩⟩
  · rw [exec_sensorReadEnd hp hs ht hr, State.goodRead_none word hc, State.nextRead_last _ ht]
    exact done _ _
  · rw [exec_sensorReadEnd hp hs ht hr, State.goodRead_channel word hc]
    have e := fun y k => State.nextRead_last (s := y)
      (st := { st with readings := st.readings.set c (.good ((s.smp.calibration.get c).correct word).1
        ((s.smp.calibration.get c).correct word).2) }) k ht
    exact (e _ _) ▸ done _ _
  · rw [exec_sensorReadTimeout hp hs ht hr, State.failedRead_none hc]
    have e := fun y k => State.nextRead_last (s := y) (st := { st with failing := st.failing.set x.device true }) k ht
    exact (e _ _) ▸ done _ _
  · rw [exec_sensorReadTimeout hp hs ht hr, State.failedRead_channel hc]
    have e := fun y k => State.nextRead_last (s := y) (st := { st with
      failing := st.failing.set x.device true, readings := st.readings.set c .failed }) k ht
    exact (e _ _) ▸ done _ _

end Sys2Proof.Machine
end

section
/-! Picture intake: Set Display Mode (4.1.2), Frame Headers and slices (4.3), refresh selection (4.4). -/

namespace Sys2Proof.Machine

/-! ## Set Display Mode -/

theorem exec_setDisplayMode (tag : Byte) (ps : List Byte) (s : State) :
    exec (.setDisplayMode tag ps) s = s.immediate 0x38 tag ps setDisplayMode := rfl

/-- The record that four bytes ask for. -/
theorem displayModeOf_eq (hz gh gv f : Byte) : displayModeOf [hz, gh, gv, f] =
    if gh.toNat % 2 = 0 ∧ gh.toNat ≤ 128 ∧ gv.toNat % 2 = 0 ∧ gv.toNat ≤ 128 ∧ f.toNat = 0 then
      (RefreshRate.ofHz hz.toNat).map fun r => ⟨r, gh.toNat, gv.toNat⟩
    else none := by
  simp [displayModeOf, field, leNat]

theorem setDisplayMode_eq (ps : List Byte) (s : State) (h : ps.length = 4) : setDisplayMode ps s =
    match displayModeOf ps with
    | none => s.refuse .range
    | some m =>
      if s.sco.anyShowing then s.refuse .state
      else
        ⟨.done, pack8 m.rate.hz ++ pack8 m.gh ++ pack8 m.gv ++ pack8 0 ++ pack16 m.width ++ pack16 m.height ++
            pack16 m.lineLength, s.setFri { s.fri.mapEyes Eye.newMode with mode := some m }⟩ :=
  if_neg (not_not.mpr h)

/-- An eye given a new mode: every slot is FREE, nothing is counted. -/
theorem Eye.newMode_frees (e : Eye) : e.newMode.completions = 0 ∧ e.newMode.counters = e.counters ∧
    ∀ i : Fin 3, e.newMode.slots[i].state = .free :=
  ⟨rfl, rfl, fun i => by simp [Eye.newMode, FrameSlot.release]⟩

theorem Fri.mapEyes_get (f : Fri) (g : Eye → Eye) (p : Panel) : (f.mapEyes g).eyes.get p = g (f.eyes.get p) := by
  cases p <;> rfl

/-- Settles O26, by whether the record is in range and whether a panel is SHOWING. -/
theorem setDisplayModeFreesSlots : Obligations.SetDisplayModeFreesSlots := by
  refine fun tag hz gh gv f s h => ⟨fun r hr h1 h2 h3 h4 hf => ⟨fun hs => ?_, fun hs => ?_⟩, fun hbad => ?_⟩
  all_goals rw [exec_setDisplayMode]
  · have hm : displayModeOf [hz, gh, gv, f] = some ⟨r, gh.toNat, gv.toNat⟩ := by
      subst hf
      rw [displayModeOf_eq, if_pos ⟨h1, h2, h3, h4, rfl⟩, hr]
      rfl
    have ha := setDisplayMode_eq [hz, gh, gv, f] s.popRequest rfl
    rw [hm] at ha
    obtain ⟨t, ht, hmoved, hans⟩ := State.immediate_answers h (ha.trans (if_neg (by
      rw [State.popRequest_sco, hs]
      decide))) rfl
    have hfri : t.fri = { s.fri.mapEyes Eye.newMode with mode := some ⟨r, gh.toNat, gv.toNat⟩ } := hmoved.fri
    refine ⟨t, ht, ?_, by rw [hfri], fun p => ?_, hans⟩
    · rw [hfri]
      exact hmoved
    · have hp : t.fri.eyes.get p = (s.fri.eyes.get p).newMode := by
        rw [hfri]
        exact s.fri.mapEyes_get Eye.newMode p
      rw [hp]
      exact Eye.newMode_frees _
  · have hm : displayModeOf [hz, gh, gv, f] = some ⟨r, gh.toNat, gv.toNat⟩ := by
      subst hf
      rw [displayModeOf_eq, if_pos ⟨h1, h2, h3, h4, rfl⟩, hr]
      rfl
    have ha := setDisplayMode_eq [hz, gh, gv, f] s.popRequest rfl
    rw [hm] at ha
    exact State.immediate_refused h (ha.trans (if_pos hs))
  · have hm : displayModeOf [hz, gh, gv, f] = none := by
      rw [displayModeOf_eq]
      split
      · rename_i hok
        obtain ⟨h1, h2, h3, h4, h5⟩ := hok
        have hf : f = 0 := BitVec.eq_of_toNat_eq h5
        rcases hbad with hr | hb | hb | hb | hb | hb
        · rw [hr]
          rfl
        all_goals first | omega | exact absurd hf hb
      · rfl
    have ha := setDisplayMode_eq [hz, gh, gv, f] s.popRequest rfl
    rw [hm] at ha
    exact State.immediate_refused h ha

/-! ## Slots in a state -/

/-- The lowest slot in a state. -/
theorem Eye.head_inState {e : Eye} {st : SlotState} {i : Fin 3} (hi : e.slots[i].state = st)
    (hl : ∀ j : Fin 3, j < i → e.slots[j].state ≠ st) : (e.inState st).head? = some i := by
  rw [Eye.inState, List.head?_filter]
  have h0 := fun h => hl 0 h
  have h1 := fun h => hl 1 h
  fin_cases i
  · exact List.find?_cons_of_pos (decide_eq_true hi)
  · exact (List.find?_cons_of_neg (by simpa using h0 (by decide))).trans
      (List.find?_cons_of_pos (decide_eq_true hi))
  · exact (List.find?_cons_of_neg (by simpa using h0 (by decide))).trans
      ((List.find?_cons_of_neg (by simpa using h1 (by decide))).trans
        (List.find?_cons_of_pos (decide_eq_true hi)))

theorem Eye.head_inState_none {e : Eye} {st : SlotState} (h : ∀ j : Fin 3, e.slots[j].state ≠ st) :
    e.inState st = [] :=
  List.eq_nil_iff_forall_not_mem.mpr fun j hj => h j (Eye.mem_inState.mp hj)

/-- A slot in a state gives a lowest one. -/
theorem Eye.exists_lowest {e : Eye} {st : SlotState} {i : Fin 3} (hi : e.slots[i].state = st) :
    ∃ j : Fin 3, e.slots[j].state = st ∧ (∀ k : Fin 3, k < j → e.slots[k].state ≠ st) ∧
      (e.inState st).head? = some j := by
  by_cases h0 : e.slots[(0 : Fin 3)].state = st
  · have hl : ∀ k : Fin 3, k < 0 → e.slots[k].state ≠ st := fun k hk => absurd hk (by omega)
    exact ⟨0, h0, hl, Eye.head_inState h0 hl⟩
  · by_cases h1 : e.slots[(1 : Fin 3)].state = st
    · have hl : ∀ k : Fin 3, k < 1 → e.slots[k].state ≠ st := fun k hk => by
        obtain rfl : k = 0 := by omega
        exact h0
      exact ⟨1, h1, hl, Eye.head_inState h1 hl⟩
    · have hl : ∀ k : Fin 3, k < 2 → e.slots[k].state ≠ st := fun k hk => by
        rcases (by omega : k = 0 ∨ k = 1) with rfl | rfl
        · exact h0
        · exact h1
      have h2 : e.slots[(2 : Fin 3)].state = st := by
        rcases (by omega : i = 0 ∨ i = 1 ∨ i = 2) with rfl | rfl | rfl
        · exact absurd hi h0
        · exact absurd hi h1
        · exact hi
      exact ⟨2, h2, hl, Eye.head_inState h2 hl⟩

/-- A fold that keeps one of two ends at the element that beats every other. -/
theorem foldl_champion {α : Type} {f : α → α → α} (hf : ∀ a b, f a b = a ∨ f a b = b) {i : α} (l : List α) (a : α)
    (hmem : i ∈ a :: l) (hwin : ∀ x ∈ a :: l, x = i ∨ (f i x = i ∧ f x i = i)) : l.foldl f a = i := by
  induction l generalizing a with
  | nil =>
    simp only [List.mem_singleton] at hmem
    exact hmem.symm
  | cons b l ih =>
    have hii : f i i = i := (hf i i).elim id id
    rw [List.foldl_cons]
    refine ih (f a b) ?_ fun x hx => ?_
    · rcases List.mem_cons.mp hmem with rfl | hmem
      · rcases hwin b (by simp) with rfl | hb
        · rw [hii]
          exact List.mem_cons_self
        · rw [hb.1]
          exact List.mem_cons_self
      · rcases List.mem_cons.mp hmem with rfl | hmem
        · rcases hwin a (by simp) with rfl | ha
          · rw [hii]
            exact List.mem_cons_self
          · rw [ha.2]
            exact List.mem_cons_self
        · exact List.mem_cons_of_mem _ hmem
    · rcases List.mem_cons.mp hx with rfl | hx
      · rcases hf a b with e | e
        · rw [e]
          exact hwin a (by simp)
        · rw [e]
          exact hwin b (by simp)
      · exact hwin x (by simp [hx])

/-- Of two different completion orders less than half the counter apart, the older is one of them. -/
theorem olderOrder_iff {a b : BitVec 32} (h0 : 0 < (b - a).toNat) (h : (b - a).toNat < 2147483648) :
    olderOrder a b = true ∧ olderOrder b a = false := by
  refine ⟨decide_eq_true h, decide_eq_false ?_⟩
  rw [BitVec.toNat_sub] at *
  omega

/-- The oldest COMPLETE slot is the one older than every other. -/
theorem Eye.oldestComplete_some {e : Eye} {i : Fin 3} (hi : e.slots[i].state = .complete)
    (h : ∀ j : Fin 3, j ≠ i → e.slots[j].state = .complete → 0 < (e.slots[j].order - e.slots[i].order).toNat ∧
      (e.slots[j].order - e.slots[i].order).toNat < 2147483648) : e.oldestComplete = some i := by
  have hmem := Eye.mem_inState.mpr hi
  unfold Eye.oldestComplete
  cases hl : e.inState .complete with
  | nil => rw [hl] at hmem; cases hmem
  | cons a l =>
    rw [hl] at hmem
    refine congrArg some (foldl_champion (fun a b => ?_) l a hmem fun x hx => ?_)
    · unfold Eye.older
      split
      · exact .inl rfl
      · exact .inr rfl
    · by_cases hx' : x = i
      · exact .inl hx'
      · obtain ⟨h0, h1⟩ := h x hx' (Eye.mem_inState.mp (hl ▸ hx))
        obtain ⟨ho, hn⟩ := olderOrder_iff h0 h1
        exact .inr ⟨if_pos ho, if_neg (by rw [hn]; decide)⟩

/-- The newest COMPLETE slot is the one newer than every other. -/
theorem Eye.newestComplete_some {e : Eye} {i : Fin 3} (hi : e.slots[i].state = .complete)
    (h : ∀ j : Fin 3, j ≠ i → e.slots[j].state = .complete → 0 < (e.slots[i].order - e.slots[j].order).toNat ∧
      (e.slots[i].order - e.slots[j].order).toNat < 2147483648) : e.newestComplete = some i := by
  have hmem := Eye.mem_inState.mpr hi
  unfold Eye.newestComplete
  cases hl : e.inState .complete with
  | nil => rw [hl] at hmem; cases hmem
  | cons a l =>
    rw [hl] at hmem
    refine congrArg some (foldl_champion (fun a b => ?_) l a hmem fun x hx => ?_)
    · unfold Eye.newer
      split
      · exact .inr rfl
      · exact .inl rfl
    · by_cases hx' : x = i
      · exact .inl hx'
      · obtain ⟨h0, h1⟩ := h x hx' (Eye.mem_inState.mp (hl ▸ hx))
        obtain ⟨ho, hn⟩ := olderOrder_iff h0 h1
        exact .inr ⟨if_neg (by rw [hn]; decide), if_pos ho⟩

/-! ## Frame Headers -/

theorem Eye.header_eq (e : Eye) (frame : BitVec 16) (tag : Seq) (ns : Bool) : e.header frame tag ns =
    match e.tornFirst.takeSlot with
    | none => (e.tornFirst, e.filling.isSome)
    | some (i, f) => ({ f with slots := f.slots.set i { f.slots[i] with
        state := .filling, frame := frame, tag := tag, noShift := ns, nextLine := 0 } }, e.filling.isSome) := rfl

theorem Eye.tornFirst_none {e : Eye} (h : e.filling = none) : e.tornFirst = e := by
  unfold Eye.tornFirst
  rw [h]

theorem Eye.tornFirst_some {e : Eye} {i : Fin 3} (h : e.filling = some i) : e.tornFirst = e.tear i := by
  unfold Eye.tornFirst
  rw [h]

theorem Eye.takeSlot_free {e : Eye} {i : Fin 3} (h : (e.inState .free).head? = some i) : e.takeSlot = some (i, e) := by
  unfold Eye.takeSlot
  rw [h]

theorem Eye.takeSlot_reclaim {e : Eye} {i : Fin 3} (h : ∀ j : Fin 3, e.slots[j].state ≠ .free)
    (hi : e.oldestComplete = some i) : e.takeSlot = some (i, { e.freeSlot i with
      counters := { e.counters with dropped := satInc e.counters.dropped } }) := by
  unfold Eye.takeSlot
  rw [Eye.head_inState_none h, hi]
  rfl

/-! ## Slices -/

theorem Slice.tears_iff (sl : Slice) (m : DisplayMode) (next : Nat) : sl.tears m next = true ↔
    next < sl.first ∨ sl.count = 0 ∨ 4 < sl.count ∨ m.height < sl.first + sl.count ∨
      sl.pixels.length ≠ sl.count * m.lineLength := by
  simp [Slice.tears, or_assoc]

theorem splitLines_length (n k : Nat) (bs : List Byte) : (splitLines n k bs).length = k := by
  induction k generalizing bs with
  | zero => rfl
  | succ k ih => simp [splitLines, ih]

theorem splitLines_getElem (n k : Nat) (bs : List Byte) {i : Nat} (h : i < k) :
    (splitLines n k bs)[i]? = some ((bs.drop (i * n)).take n) := by
  induction k generalizing bs i with
  | zero => omega
  | succ k ih =>
    cases i with
    | zero => simp [splitLines]
    | succ i =>
      rw [splitLines, List.getElem?_cons_succ, ih _ (by omega), List.drop_drop]
      congr 3
      rw [Nat.succ_mul, Nat.add_comm]

/-- A slice's lines stand at their places, over what stood there. -/
theorem FrameSlot.store_lines {f : FrameSlot} {m : DisplayMode} {sl : Slice} (hf : sl.first = f.nextLine)
    (hl : sl.first ≤ f.lines.length) (n : Nat) :
    (n < sl.count → (f.store m sl).lines[sl.first + n]? =
      some ((sl.pixels.drop (n * m.lineLength)).take m.lineLength)) ∧
    (n < sl.first ∨ sl.first + sl.count ≤ n → (f.store m sl).lines[n]? = f.lines[n]?) := by
  have htake : (f.lines.take f.nextLine).length = sl.first := by
    rw [List.length_take]
    omega
  have hmid : (f.lines.take f.nextLine ++ splitLines m.lineLength sl.count sl.pixels).length =
      sl.first + sl.count := by
    rw [List.length_append, htake, splitLines_length]
  unfold FrameSlot.store
  simp only
  constructor
  · intro hn
    rw [List.getElem?_append_left (by omega), List.getElem?_append_right (by omega), htake,
      Nat.add_sub_cancel_left, splitLines_getElem _ _ _ hn]
  · rintro (hn | hn)
    · rw [List.getElem?_append_left (by omega), List.getElem?_append_left (by omega),
        List.getElem?_take_of_lt (by omega)]
    · rw [List.getElem?_append_right (by omega), hmid, List.getElem?_drop]
      congr 1
      omega

section slice
variable {e : Eye} {m : DisplayMode} {i : Fin 3} {sl : Slice}

theorem Eye.slice_none (h : e.filling = none) : e.slice m sl =
    ({ e with counters := { e.counters with orphan := satInc e.counters.orphan } }, false) := by
  unfold Eye.slice
  rw [h]

theorem Eye.slice_orphan (h : e.filling = some i) (hf : sl.frame ≠ e.slots[i].frame) : e.slice m sl =
    ({ e with counters := { e.counters with orphan := satInc e.counters.orphan } }, false) := by
  unfold Eye.slice
  rw [h]
  exact if_pos hf

theorem Eye.slice_duplicate (h : e.filling = some i) (hf : sl.frame = e.slots[i].frame)
    (hl : sl.first < e.slots[i].nextLine) : e.slice m sl =
      ({ e with counters := { e.counters with duplicate := satInc e.counters.duplicate } }, false) := by
  unfold Eye.slice
  rw [h]
  exact (if_neg (not_not.mpr hf)).trans (if_pos hl)

theorem Eye.slice_tears (h : e.filling = some i) (hf : sl.frame = e.slots[i].frame)
    (hl : e.slots[i].nextLine ≤ sl.first) (ht : sl.tears m e.slots[i].nextLine = true) :
    e.slice m sl = (e.tear i, true) := by
  unfold Eye.slice
  rw [h]
  exact (if_neg (not_not.mpr hf)).trans ((if_neg (not_lt.mpr hl)).trans (if_pos ht))

/-- The eye with a slice's lines stored. -/
def Eye.stored (e : Eye) (i : Fin 3) (m : DisplayMode) (sl : Slice) : Eye :=
  { e with slots := e.slots.set i (e.slots[i].store m sl) }

theorem Eye.slice_stores (h : e.filling = some i) (hf : sl.frame = e.slots[i].frame)
    (hl : sl.first = e.slots[i].nextLine) (ht : sl.tears m e.slots[i].nextLine = false) : e.slice m sl =
      (if sl.first + sl.count = m.height then (e.stored i m sl).complete i else e.stored i m sl, false) := by
  unfold Eye.slice
  rw [h, hl]
  refine (if_neg (not_not.mpr hf)).trans ((if_neg (by omega)).trans (if_neg ?_))
  rw [ht]
  decide

theorem Eye.stored_slot (e : Eye) (i j : Fin 3) (m : DisplayMode) (sl : Slice) :
    (e.stored i m sl).slots[j] = if i = j then e.slots[i].store m sl else e.slots[j] := getFrameSlot_set _ _ _ _

theorem Eye.complete_slot (e : Eye) (i j : Fin 3) : (e.complete i).slots[j] =
    if i = j then { e.slots[i] with state := .complete, order := e.completions } else e.slots[j] :=
  getFrameSlot_set _ _ _ _

end slice

/-! ## Refresh selection -/

theorem Eye.select_newest {e : Eye} {i : Fin 3} (h : e.newestComplete = some i) : e.select =
    (.fresh e.slots[i].frame e.slots[i].tag e.slots[i].noShift,
      { e.freeStates [.scanning, .complete] with
        slots := (e.freeStates [.scanning, .complete]).slots.set i { e.slots[i] with state := .scanning }
        counters := { e.counters with
          dropped := satAdd e.counters.dropped ((e.inState .complete).length - 1) } }) := by
  unfold Eye.select
  rw [h]

theorem Eye.newestComplete_none {e : Eye} (h : e.inState .complete = []) : e.newestComplete = none := by
  unfold Eye.newestComplete
  rw [h]

theorem Eye.select_repeat {e : Eye} {i : Fin 3} {l : List (Fin 3)} (hc : e.inState .complete = [])
    (hs : e.inState .scanning = i :: l) : e.select =
      (.again e.slots[i].frame e.slots[i].tag e.slots[i].noShift,
        { e with counters := { e.counters with repeated := satInc e.counters.repeated } }) := by
  unfold Eye.select
  rw [Eye.newestComplete_none hc, hs]
  rfl

theorem Eye.select_blank {e : Eye} (hc : e.inState .complete = []) (hs : e.inState .scanning = []) : e.select =
    (.nothing, { e with counters := { e.counters with blank := satInc e.counters.blank } }) := by
  unfold Eye.select
  rw [Eye.newestComplete_none hc, hs]
  rfl

theorem Eye.freeStates_slot (e : Eye) (sts : List SlotState) (i : Fin 3) : (e.freeStates sts).slots[i] =
    if sts.contains e.slots[i].state then e.slots[i].release else e.slots[i] := by
  simp only [Eye.freeStates, Fin.getElem_fin, Vector.getElem_map]

/-! ## Picture messages -/

theorem field_headD (ps : List Byte) : field ps 0 1 = (ps.headD 0).toNat := by
  cases ps with
  | nil => rfl
  | cons b bs => exact field_cons b bs

theorem Eye.message_eq (e : Eye) (m : DisplayMode) (payload : List Byte) : e.message (some m) payload =
    if field payload 0 1 = 1 ∧ payload.length = 8 then
      e.header (BitVec.ofNat 16 (field payload 1 2)) (BitVec.ofNat 32 (field payload 3 4))
        ((payload.getD 7 0).getLsbD 0)
    else if field payload 0 1 = 2 ∧ 6 ≤ payload.length then
      e.slice m ⟨BitVec.ofNat 16 (field payload 1 2), field payload 3 2, field payload 5 1, payload.drop 6⟩
    else
      ({ e with counters := { e.counters with malformed := satInc e.counters.malformed } }, false) := rfl

/-- Settles O27, by the outcomes of slices, headers, messages and selections, each a lemma above. -/
theorem sliceAndSelectionOutcomes : Obligations.SliceAndSelectionOutcomes := by
  refine ⟨fun e m i sl hi => ?_, fun e m sl h => Eye.slice_none h, fun e frame tag ns => ?_, fun e payload =>
    ⟨rfl, fun m => ⟨?_, ?_, fun h => ?_⟩⟩, fun p payload s => ?_, fun e => ⟨Eye.select_blank, fun i l => Eye.select_repeat,
      fun i hi h => ?_⟩⟩
  · intro torn
    refine ⟨Eye.slice_orphan hi, Eye.slice_duplicate hi, fun hf hl ht => ?_, fun hf hl h1 h4 hh hp => ?_⟩
    · have e1 := Eye.slice_tears (m := m) hi hf hl ((Slice.tears_iff _ _ _).mpr ht)
      simp only [torn]
      rw [e1]
      refine ⟨rfl, ?_, rfl, rfl, fun j hj => ?_⟩
      · exact (Eye.freeSlot_states e i i).trans (if_pos rfl)
      · exact (getFrameSlot_set _ _ _ _).trans (if_neg (Ne.symm hj))
    · have ht : sl.tears m e.slots[i].nextLine = false := by
        rw [← Bool.not_eq_true, Slice.tears_iff]
        omega
      rw [Eye.slice_stores hi hf hl ht]
      have hstored := fun j => e.stored_slot i j m sl
      have hcomp := fun j => (e.stored i m sl).complete_slot i j
      have hii : (e.stored i m sl).slots[i] = e.slots[i].store m sl := (hstored i).trans (if_pos rfl)
      have hfill : (e.slots[i].store m sl).state = .filling := Eye.filling_some hi
      have hnext : (e.slots[i].store m sl).nextLine = sl.first + sl.count := by rw [hl]; rfl
      by_cases hlast : sl.first + sl.count = m.height
      · rw [if_pos hlast]
        have hci : ((e.stored i m sl).complete i).slots[i] =
            { e.slots[i].store m sl with state := .complete, order := e.completions } := by
          rw [hcomp, if_pos rfl, hii]
          rfl
        refine ⟨rfl, ?_, fun hlen n => ?_, fun j hj => ?_, fun hlt => absurd hlast (by omega), fun _ => ⟨?_, ?_, rfl, rfl⟩⟩
        · simp only [hci]
          exact hnext
        · simp only [hci]
          exact FrameSlot.store_lines hl hlen n
        · simp only
          rw [hcomp, if_neg (Ne.symm hj), hstored, if_neg (Ne.symm hj)]
        · simp only [hci]
        · simp only [hci]
      · rw [if_neg hlast]
        refine ⟨rfl, ?_, fun hlen n => ?_, fun j hj => ?_, fun hlt => ⟨?_, rfl, rfl⟩, fun h => absurd h hlast⟩
        · simp only [hii]
          exact hnext
        · simp only [hii]
          exact FrameSlot.store_lines hl hlen n
        · simp only
          rw [hstored, if_neg (Ne.symm hj)]
        · simp only [hii]
          exact hfill
  · intro opens free lowestFree
    refine ⟨fun i hn hl => ?_, fun i hn hnf hc h => ?_, fun i hi => ?_⟩
    · have ht : e.tornFirst = e := Eye.tornFirst_none hn
      rw [Eye.header_eq, ht, Eye.takeSlot_free (Eye.head_inState hl.1 hl.2), hn]
      rfl
    · have ht : e.tornFirst = e := Eye.tornFirst_none hn
      rw [Eye.header_eq, ht, Eye.takeSlot_reclaim hnf (Eye.oldestComplete_some hc h), hn]
      rfl
    · have ht : e.tornFirst = e.tear i := Eye.tornFirst_some hi
      have hfree : (e.tear i).slots[i].state = .free := (Eye.freeSlot_states e i i).trans (if_pos rfl)
      obtain ⟨j, hj, hlow, hhead⟩ := Eye.exists_lowest hfree
      refine ⟨j, ?_, hj, hlow⟩
      rw [Eye.header_eq, ht, Eye.takeSlot_free hhead, hi]
      rfl
  · rintro f0 f1 t0 t1 t2 t3 flags rfl
    rw [Eye.message_eq, if_pos ⟨by simp [field, leNat], rfl⟩]
    congr 2
  · rintro f0 f1 l0 l1 n pixels rfl
    rw [Eye.message_eq, if_neg (by simp [field, leNat]), if_pos ⟨by simp [field, leNat], by simp⟩]
    congr 2
  · have h1 : ∀ b : Byte, b.toNat = 1 ↔ b = 1 := fun b => ⟨fun h => BitVec.eq_of_toNat_eq h, fun h => by rw [h]; rfl⟩
    have h2 : ∀ b : Byte, b.toNat = 2 ↔ b = 2 := fun b => ⟨fun h => BitVec.eq_of_toNat_eq h, fun h => by rw [h]; rfl⟩
    rw [Eye.message_eq, field_headD]
    simp only [h1, h2]
    refine (if_neg fun hc => ?_).trans (if_neg fun hc => ?_)
    · rcases h with rfl | h | h | h
      · cases hc.2
      · exact h.1 hc.1
      · exact h.2 hc.2
      · rw [hc.1] at h
        exact absurd h.1 (by decide)
    · rcases h with rfl | h | h | h
      · exact absurd hc.2 (by simp)
      · exact h.2 hc.1
      · rw [hc.1] at h
        exact absurd h.1 (by decide)
      · omega
  · intro r x
    exact ⟨fun h => if_neg (by rw [h]; decide), fun h => by
      have e1 : s.pictureMessage p payload = x.setSummary bitPicture := if_pos h
      rw [e1]
      exact State.setSummary_only _ _⟩
  · rw [Eye.select_newest (Eye.newestComplete_some hi h)]
    refine ⟨rfl, (getFrameSlot_set _ _ _ _).trans (if_pos rfl), fun j hj => ?_, rfl⟩
    have hslot : ((e.freeStates [.scanning, .complete]).slots.set i { e.slots[i] with state := .scanning })[j] =
        if [SlotState.scanning, .complete].contains e.slots[j].state then e.slots[j].release else e.slots[j] := by
      rw [getFrameSlot_set, if_neg (Ne.symm hj), Eye.freeStates_slot]
    simp only
    rw [hslot]
    refine ⟨fun hst => ?_, fun hst => ?_⟩
    · rw [if_pos (by rcases hst with e1 | e1 <;> rw [e1] <;> decide)]
      rfl
    · rw [if_neg (by rcases hst with e1 | e1 <;> rw [e1] <;> decide)]

end Sys2Proof.Machine
end

section
/-! The panel requests (5.1.2), ramps, and the scan and picture queries. -/

namespace Sys2Proof.Machine

/-! ## Panels changed in one event -/

/-- Both panels with a function applied to those named. -/
def State.panelsWith (s : State) (names : List Panel) (f : PanelCtl → PanelCtl) : Pair PanelCtl :=
  ⟨if .left ∈ names then f (s.panel .left) else s.panel .left,
    if .right ∈ names then f (s.panel .right) else s.panel .right⟩

theorem State.panelsWith_get (s : State) (names : List Panel) (f : PanelCtl → PanelCtl) (p : Panel) :
    (s.panelsWith names f).get p = if p ∈ names then f (s.panel p) else s.panel p := by
  cases p <;> rfl

theorem State.panel_setPanel (s : State) (p q : Panel) (c : PanelCtl) :
    (s.setPanel p c).panel q = if q = p then c else s.panel q := by
  cases p <;> cases q <;> rfl

/-- The function is applied once to each panel named, and nothing else changes. -/
theorem State.updatePanels_eq {names : List Panel} (h : names.Nodup) (f : PanelCtl → PanelCtl) (s : State) :
    s.updatePanels names f = s.setSco { s.sco with panels := s.panelsWith names f } := by
  induction names generalizing s with
  | nil => rfl
  | cons p l ih =>
    obtain ⟨hp, hl⟩ := List.nodup_cons.mp h
    have hstep : s.updatePanels (p :: l) f = (s.setPanel p (f (s.panel p))).updatePanels l f := rfl
    have hpair : (s.setPanel p (f (s.panel p))).panelsWith l f = s.panelsWith (p :: l) f := by
      unfold State.panelsWith
      cases p <;> simp_all [State.panel_setPanel]
    rw [hstep, ih hl, hpair]
    rfl

theorem panelSetOfCode_nodup {n : Nat} {names : List Panel} (h : panelSetOfCode n = some names) : names.Nodup := by
  unfold panelSetOfCode at h
  split at h <;> cases h <;> decide

theorem panelsNamed_ok {b : Byte} {names : List Panel} (h : panelSetOfCode b.toNat = some names) :
    panelsNamed [b] = .ok names := by
  unfold panelsNamed
  rw [if_neg (by simp), field_one, h]

/-- A selection of the panels named is not empty where one of them meets the condition. -/
theorem isEmpty_filter_eq_false {α : Type} {l : List α} {P : α → Prop} [DecidablePred P] (h : ∃ a ∈ l, P a) :
    (l.filter fun a => decide (P a)).isEmpty = false := by
  obtain ⟨a, ha, hp⟩ := h
  rw [List.isEmpty_eq_false_iff_exists_mem]
  exact ⟨a, List.mem_filter.mpr ⟨ha, by simpa using hp⟩⟩

/-! ## Panels On -/

theorem exec_panelsOn (tag : Byte) (ps : List Byte) (s : State) :
    exec (.panelsOn tag ps) s = s.long 0x40 tag ps panelsOn := rfl
theorem exec_panelsOff (tag : Byte) (ps : List Byte) (s : State) :
    exec (.panelsOff tag ps) s = s.long 0x41 tag ps panelsOff := rfl
theorem exec_panelsShow (tag : Byte) (ps : List Byte) (s : State) :
    exec (.panelsShow tag ps) s = s.immediate 0x42 tag ps panelsShow := rfl
theorem exec_panelsStandby (tag : Byte) (ps : List Byte) (s : State) :
    exec (.panelsStandby tag ps) s = s.immediate 0x43 tag ps panelsStandby := rfl

section panelsOn
variable {b : Byte} {names : List Panel} {s : State}

theorem panelsOn_emergency (h : panelSetOfCode b.toNat = some names) (he : s.pmg.emergency = true) :
    panelsOn [b] s = .answered ⟨.state, s.panelFields b, s⟩ := by
  unfold panelsOn
  rw [panelsNamed_ok h]
  exact if_pos he

theorem panelsOn_busy (h : panelSetOfCode b.toNat = some names) (he : s.pmg.emergency = false)
    (hr : ∃ p ∈ names, (s.panel p).ramping = true) :
    panelsOn [b] s = .answered ⟨.busy, s.panelFields b, s⟩ := by
  unfold panelsOn
  rw [panelsNamed_ok h]
  exact (if_neg (by rw [he]; decide)).trans (if_pos (List.any_eq_true.mpr hr))

/-- The panels that a Panels On moves. -/
theorem panelsOn_free (h : panelSetOfCode b.toNat = some names) (he : s.pmg.emergency = false)
    (hr : ∀ p ∈ names, (s.panel p).ramping = false) : panelsOn [b] s =
      if (names.filter fun p => decide ((s.panel p).state = .off)).isEmpty then .answered ⟨.done, s.panelFields b, s⟩
      else .started (.panels (names.filter fun p => decide ((s.panel p).state = .off)) b)
        (s.updatePanels (names.filter fun p => decide ((s.panel p).state = .off)) fun c =>
          { c with state := .rampUp, rampEnd := s.osc + ms 12, longOp := .on }) := by
  unfold panelsOn
  rw [panelsNamed_ok h]
  exact (if_neg (by rw [he]; decide)).trans (if_neg (by simpa using hr))

end panelsOn

/-- Settles O28, by the emergency, a ramp and whether a named panel is OFF. -/
theorem panelsOnRampsUp : Obligations.PanelsOnRampsUp := by
  refine fun tag b names s h hn => ⟨fun he hr => ⟨fun hoff => ?_, fun hon => ?_⟩, fun he hr => ?_, fun he => ?_⟩
  all_goals rw [exec_panelsOn]
  · have hne : (names.filter fun p => decide ((s.panel p).state = .off)).isEmpty = false :=
      isEmpty_filter_eq_false hoff
    have ha := (panelsOn_free (s := s.popRequest) hn he hr).trans (if_neg (Bool.not_eq_true _ ▸ hne))
    rw [State.updatePanels_eq ((panelSetOfCode_nodup hn).filter _)] at ha
    refine ⟨_, State.long_starts h ha, fun p => ?_, rfl⟩
    have hp := s.popRequest.panelsWith_get (names.filter fun p => decide ((s.panel p).state = .off))
      (fun c => { c with state := .rampUp, rampEnd := s.osc + ms 12, longOp := .on }) p
    refine hp.trans (if_congr ?_ rfl rfl)
    rw [List.mem_filter, decide_eq_true_eq]
  · have hemp : (names.filter fun p => decide ((s.panel p).state = .off)).isEmpty = true := by
      rw [List.isEmpty_iff, List.filter_eq_nil_iff]
      simpa using hon
    exact State.long_answers h ((panelsOn_free (s := s.popRequest) hn he hr).trans (if_pos hemp)) rfl
  · exact State.long_answers h (panelsOn_busy (s := s.popRequest) hn he hr) rfl
  · exact State.long_answers h (panelsOn_emergency (s := s.popRequest) hn he) rfl

/-! ## The end of a refresh start -/

/-- A panel that is not SHOWING takes no part in a refresh start. -/
theorem State.refreshPanel_out {s : State} {start : Time} {p : Panel} (h : (s.panel p).state ≠ .showing) :
    s.refreshPanel start p = (s, List.replicate 10 0) := if_neg h

theorem State.finishRefresh_idle {s : State} (h : s.sco.refreshing = none) : s.finishRefresh = s := by
  unfold State.finishRefresh
  rw [h]

theorem State.finishRefresh_some {s : State} {r : Refreshing} (h : s.sco.refreshing = some r) : s.finishRefresh =
    let w := (s.setSco { s.sco with refreshing := none }).refreshPanel r.start r.panel
    w.1.reportIf w.1.mge.enables.refresh .refresh (refreshFields r.start r.panel w.2 r.entry) := by
  unfold State.finishRefresh
  rw [h]

theorem refreshFields_eq (start : Time) (p : Panel) (own other : List Byte) : refreshFields start p own other =
    packTime start ++ if p = .left then own ++ other else other ++ own := by
  cases p <;> rfl

/-- A refresh start whose one panel still to be taken is not SHOWING: it is done, and reported. -/
theorem State.finishRefresh_out {s : State} {r : Refreshing} (h : s.sco.refreshing = some r)
    (hp : (s.panel r.panel).state ≠ .showing) :
    OnlyMessages (s.setSco { s.sco with refreshing := none }) s.finishRefresh ∧
      (s.mge.enables.refresh = true → Reported s.finishRefresh .refresh (packTime r.start ++
        if r.panel = .left then List.replicate 10 0 ++ r.entry else r.entry ++ List.replicate 10 0)) := by
  have hout : (s.setSco { s.sco with refreshing := none }).refreshPanel r.start r.panel =
      (s.setSco { s.sco with refreshing := none }, List.replicate 10 0) := State.refreshPanel_out hp
  rw [State.finishRefresh_some h, hout]
  simp only [refreshFields_eq]
  refine ⟨State.reportIf_only _ _ _ _, fun hon => ?_⟩
  rw [State.setSco_mge, hon]
  exact State.reportIf_reported _ _ _

/-- The refresh timer after panels have left SHOWING. -/
def State.timerSettled (s : State) : State :=
  s.setSco { s.sco with refreshDue := if s.sco.anyShowing then s.sco.refreshDue else none }

theorem State.settleRefresh_eq (s : State) : s.settleRefresh =
    match s.sco.refreshing with
    | none => s.timerSettled
    | some r => if (s.panel r.panel).state = .showing then s.timerSettled else s.timerSettled.finishRefresh := by
  have ht : (if s.sco.anyShowing then s else s.setSco { s.sco with refreshDue := none }) = s.timerSettled := by
    unfold State.timerSettled
    cases s.sco.anyShowing <;> rfl
  unfold State.settleRefresh
  rw [ht]
  rfl

theorem State.settleRefresh_quiet {s : State}
    (h : ∀ r, s.sco.refreshing = some r → (s.panel r.panel).state = .showing) : s.settleRefresh = s.timerSettled := by
  rw [State.settleRefresh_eq]
  cases hr : s.sco.refreshing with
  | none => rfl
  | some r => exact if_pos (h r hr)

theorem State.settleRefresh_done {s : State} {r : Refreshing} (h : s.sco.refreshing = some r)
    (hp : (s.panel r.panel).state ≠ .showing) : s.settleRefresh = s.timerSettled.finishRefresh := by
  rw [State.settleRefresh_eq, h]
  exact if_neg hp

theorem Sco.anyShowing_iff (c : Sco) : c.anyShowing = true ↔
    c.panels.left.state = .showing ∨ c.panels.right.state = .showing := by
  simp [Sco.anyShowing]

/-- The timer settled, written out. -/
theorem State.timerSettled_eq (s : State) : s.timerSettled = s.setSco { s.sco with
    refreshDue := if s.sco.panels.left.state = .showing ∨ s.sco.panels.right.state = .showing
      then s.sco.refreshDue else none } := by
  unfold State.timerSettled
  simp only [Sco.anyShowing_iff]

/-! ## Panels Off -/

section panelsOff
variable {b : Byte} {names : List Panel} {s : State}

theorem panelsOff_busy (h : panelSetOfCode b.toNat = some names) (hr : ∃ p ∈ names, (s.panel p).ramping = true) :
    panelsOff [b] s = .answered ⟨.busy, s.panelFields b, s⟩ := by
  unfold panelsOff
  rw [panelsNamed_ok h]
  exact if_pos (List.any_eq_true.mpr hr)

theorem panelsOff_free (h : panelSetOfCode b.toNat = some names)
    (hr : ∀ p ∈ names, (s.panel p).ramping = false) : panelsOff [b] s =
      if (names.filter fun p => decide ((s.panel p).state ≠ .off)).isEmpty then .answered ⟨.done, s.panelFields b, s⟩
      else .started (.panels (names.filter fun p => decide ((s.panel p).state ≠ .off)) b)
        (s.updatePanels (names.filter fun p => decide ((s.panel p).state ≠ .off)) fun c =>
          { c.leave .rampDown with rampEnd := s.osc + ms 5, longOp := .off }).settleRefresh := by
  unfold panelsOff
  rw [panelsNamed_ok h]
  exact if_neg (by simpa using hr)

end panelsOff

/-- A request that starts its operation joins the in-progress set, whatever was in progress. -/
theorem State.long_starts_joins {s x : State} {k tag : Byte} {ps : List Byte} {r : Resource}
    {owner : List Byte → State → LongAnswer} (h : Stands s k tag ps) (ha : owner ps s.popRequest = .started r x)
    (hx : x.mge.inProgress = s.mge.inProgress) : s.long k tag ps owner =
      .next (x.setMge { x.mge with inProgress := s.mge.inProgress ++ [⟨k, tag, r⟩] }) := by
  rw [State.long_starts h ha, hx]

/-- Settles O29. The panels that leave SHOWING are taken together; what `settleRefresh` then does is by whether a
refresh start still waits for one of them. -/
theorem panelsOffRampsDown : Obligations.PanelsOffRampsDown := by
  intro tag b names s h hn answers
  refine ⟨fun hr => ?_, fun hoff => ?_, fun hr hon => ?_⟩
  · show ∃ t, exec (.panelsOff tag [b]) s = .next t ∧ _
    rw [exec_panelsOff]
    exact State.long_answers h (panelsOff_busy (s := s.popRequest) hn hr) rfl
  · have hr : ∀ p ∈ names, (s.popRequest.panel p).ramping = false := fun p hp => by
      unfold PanelCtl.ramping
      rw [State.popRequest_panel, hoff p hp]
      rfl
    have hemp : (names.filter fun p => decide ((s.panel p).state ≠ .off)).isEmpty = true := by
      rw [List.isEmpty_iff, List.filter_eq_nil_iff]
      simpa using hoff
    show ∃ t, exec (.panelsOff tag [b]) s = .next t ∧ _
    rw [exec_panelsOff]
    exact State.long_answers h ((panelsOff_free hn hr).trans (if_pos hemp)) rfl
  · intro after showing x
    have hne : (names.filter fun p => decide ((s.panel p).state ≠ .off)).isEmpty = false :=
      isEmpty_filter_eq_false hon
    have ha := (panelsOff_free (s := s.popRequest) hn hr).trans (if_neg (Bool.not_eq_true _ ▸ hne))
    rw [State.updatePanels_eq ((panelSetOfCode_nodup hn).filter _)] at ha
    have hget : ∀ p, (s.popRequest.panelsWith (names.filter fun p => decide ((s.panel p).state ≠ .off)) fun c =>
        { c.leave .rampDown with rampEnd := s.osc + ms 5, longOp := .off }).get p = after p := fun p => by
      refine (State.panelsWith_get _ _ _ p).trans (if_congr ?_ rfl rfl)
      rw [List.mem_filter, decide_eq_true_eq]
    have hpair : (s.popRequest.panelsWith (names.filter fun p => decide ((s.panel p).state ≠ .off)) fun c =>
        { c.leave .rampDown with rampEnd := s.osc + ms 5, longOp := .off }) = ⟨after .left, after .right⟩ := by
      rw [← hget .left, ← hget .right]
      rfl
    have ha' := ha.trans (congrArg (fun ps => LongAnswer.started
      (.panels (names.filter fun p => decide ((s.panel p).state ≠ .off)) b)
      (s.popRequest.setSco { s.sco with panels := ps }).settleRefresh) hpair)
    rw [exec_panelsOff]
    constructor
    · intro hq
      rw [State.settleRefresh_quiet (fun r hr' => by
        have hs := hq r hr'
        revert hs
        cases r.panel <;> exact id)] at ha'
      rw [State.timerSettled_eq] at ha'
      exact State.long_starts_joins h ha' rfl
    · intro r hr' hp
      have hp' : ((s.popRequest.setSco { s.sco with panels := ⟨after .left, after .right⟩ }).timerSettled.panel
          r.panel).state ≠ .showing := by
        revert hp
        cases r.panel <;> exact id
      have hdone := State.settleRefresh_done
        (s := s.popRequest.setSco { s.sco with panels := ⟨after .left, after .right⟩ }) (r := r) hr' hp'
      obtain ⟨hm, hrep⟩ := State.finishRefresh_out
        (s := (s.popRequest.setSco { s.sco with panels := ⟨after .left, after .right⟩ }).timerSettled) (r := r) hr' hp'
      rw [← hdone] at hm hrep
      refine ⟨_, State.long_starts_joins h ha' hm.inProgress, ?_, fun hon' => hrep hon'⟩
      have hj := hm.setInProgress (s.mge.inProgress ++
        [⟨0x41, tag, .panels (names.filter fun p => decide ((s.panel p).state ≠ .off)) b⟩])
      rw [State.timerSettled_eq] at hj
      exact hj

/-! ## Ramp ends -/

theorem exec_rampUpEnd {s : State} {p : Panel} (hp : s.powered = true) (h : (s.panel p).state = .rampUp) :
    exec (.rampUpEnd p) s = .next ((s.advanceTo (s.panel p).rampEnd).endRamp p .standby) := by
  have he : exec (.rampUpEnd p) s = execRampUpEnd p s := rfl
  rw [he, execRampUpEnd, State.live_powered hp, if_pos h]

theorem exec_rampDownEnd {s : State} {p : Panel} (hp : s.powered = true) (h : (s.panel p).state = .rampDown) :
    exec (.rampDownEnd p) s = .next ((s.advanceTo (s.panel p).rampEnd).endRamp p .off) := by
  have he : exec (.rampDownEnd p) s = execRampDownEnd p s := rfl
  rw [he, execRampDownEnd, State.live_powered hp, if_pos h]

/-- The end of the only ramp that the one request in progress waits for answers it. -/
theorem State.endRamp_answers {u : State} {p : Panel} {k tag set : Byte}
    (h : u.mge.inProgress = [⟨k, tag, .panels [p] set⟩]) (st : PanelState) :
    let v := u.setPanel p { u.panel p with state := st, longOp := .none }
    OnlyMessages (v.setMge { u.mge with inProgress := [] }) (u.endRamp p st) ∧
      Answered u (u.endRamp p st) k tag .done
        ([set] ++ pack8 (v.panel .left).state.code ++ pack8 (v.panel .right).state.code) := by
  intro v
  let w := v.setMge { u.mge with inProgress := [⟨k, tag, .panels [] set⟩] }
  have hend : u.endRamp p st = w.finish InProgress.rampsDone .done panelEndFields := by
    have hmap : u.mge.inProgress.map (fun e => e.unramp p) = [⟨k, tag, .panels [] set⟩] := by
      rw [h]
      simp [InProgress.unramp]
    show (v.setMge { v.mge with inProgress := v.mge.inProgress.map (fun e => e.unramp p) }).finish _ _ _ = _
    rw [show v.mge = u.mge from rfl, hmap]
  rw [hend]
  have hrun : w.mge.inProgress.filter InProgress.rampsDone = [⟨k, tag, .panels [] set⟩] := rfl
  exact ⟨State.finish_only w InProgress.rampsDone .done panelEndFields,
    State.finish_answered (s := w) .done panelEndFields hrun⟩

/-- Settles O30. -/
theorem rampEndsAnswerRequest : Obligations.RampEndsAnswerRequest := by
  intro s p k tag set hp hin ends
  have hend := State.endRamp_answers (u := s.advanceTo (s.panel p).rampEnd) (p := p) hin
  exact ⟨fun h => ⟨_, exec_rampUpEnd hp h, hend .standby⟩, fun h => ⟨_, exec_rampDownEnd hp h, hend .off⟩⟩

/-! ## A refresh start's frame -/

/-- What the work of a refresh start leaves of the panels' states and of the timer. -/
structure RefreshKeeps (s t : State) : Prop where
  states : ∀ p, (t.panel p).state = (s.panel p).state
  due : t.sco.refreshDue = s.sco.refreshDue
  latest : t.sco.latestRefresh = s.sco.latestRefresh
  turns : t.turns = s.turns

theorem RefreshKeeps.refl (s : State) : RefreshKeeps s s := ⟨fun _ => rfl, rfl, rfl, rfl⟩

theorem RefreshKeeps.trans {s t u : State} (h : RefreshKeeps s t) (k : RefreshKeeps t u) : RefreshKeeps s u :=
  ⟨fun p => (k.states p).trans (h.states p), k.due.trans h.due, k.latest.trans h.latest, k.turns.trans h.turns⟩

theorem OnlyMessages.panel {s t : State} (h : OnlyMessages s t) (p : Panel) : t.panel p = s.panel p := by
  unfold State.panel
  rw [h.sco]

theorem OnlyMessages.refreshKeeps {s t : State} (h : OnlyMessages s t) : RefreshKeeps s t :=
  ⟨fun p => by rw [h.panel], by rw [h.sco], by rw [h.sco], h.turns⟩

theorem RefreshKeeps.setPanel (s : State) {p : Panel} {c : PanelCtl} (h : c.state = (s.panel p).state) :
    RefreshKeeps s (s.setPanel p c) := by
  refine ⟨fun q => ?_, rfl, rfl, rfl⟩
  rw [State.panel_setPanel]
  split
  · rename_i e
    rw [h, e]
  · rfl

/-- A frame shown: the lookup's state, and the panel's with its late shift. -/
def State.shownWith (s : State) (p : Panel) (m : DisplayMode) (h : Shift) : State :=
  s.setPanel p { s.panel p with
    applied := min (s.panel p).requested s.emissionCap, sx := h.sx, sy := h.sy
    window := some ⟨(m.gh - h.sx).toNat, (m.gv - h.sy).toNat⟩
    counters := (s.panel p).counters.count h }

theorem State.showFrame_eq (s : State) (p : Panel) (m : DisplayMode) (start : Time) (code : Nat) (frame : BitVec 16)
    (tag : Seq) (ns : Bool) : s.showFrame p m start code frame tag ns =
      let h := (s.shiftFor m start tag ns).1
      let t := (s.shiftFor m start tag ns).2
      (if h.stale || h.clamped then (t.shownWith p m h).setSummary bitPicture else t.shownWith p m h,
        refreshEntry code frame.toNat h.sx h.sy (h.stale.toNat + 2 * h.clamped.toNat + 4 * ns.toNat)
          (min (t.panel p).requested t.emissionCap)) := rfl

theorem State.shiftFor_keeps (s : State) (m : DisplayMode) (start : Time) (tag : Seq) (ns : Bool) :
    RefreshKeeps s (s.shiftFor m start tag ns).2 ∧ (s.shiftFor m start tag ns).2.sco = s.sco := by
  unfold State.shiftFor
  split <;> exact ⟨⟨fun _ => rfl, rfl, rfl, rfl⟩, rfl⟩

theorem State.setSummary_refreshKeeps (s : State) (bits : BitVec 8) :
    RefreshKeeps s (s.setSummary bits) ∧ (s.setSummary bits).sco = s.sco := by
  have h := s.setSummary_only bits
  refine ⟨⟨fun p => ?_, by rw [h.sco]; rfl, by rw [h.sco]; rfl, h.turns⟩, h.sco⟩
  rw [h.panel]
  rfl

theorem State.showFrame_keeps (s : State) (p : Panel) (m : DisplayMode) (start : Time) (code : Nat)
    (frame : BitVec 16) (tag : Seq) (ns : Bool) : RefreshKeeps s (s.showFrame p m start code frame tag ns).1 ∧
      (s.showFrame p m start code frame tag ns).1.sco.refreshing = s.sco.refreshing := by
  obtain ⟨hk, hsco⟩ := s.shiftFor_keeps m start tag ns
  rw [State.showFrame_eq]
  simp only
  have hshown : RefreshKeeps (s.shiftFor m start tag ns).2
      ((s.shiftFor m start tag ns).2.shownWith p m (s.shiftFor m start tag ns).1) := RefreshKeeps.setPanel _ rfl
  have hr : ((s.shiftFor m start tag ns).2.shownWith p m (s.shiftFor m start tag ns).1).sco.refreshing =
      s.sco.refreshing := by
    show (s.shiftFor m start tag ns).2.sco.refreshing = _
    rw [hsco]
  split
  · obtain ⟨hsum, hs⟩ := State.setSummary_refreshKeeps
      ((s.shiftFor m start tag ns).2.shownWith p m (s.shiftFor m start tag ns).1) bitPicture
    exact ⟨(hk.trans hshown).trans hsum, by rw [hs]; exact hr⟩
  · exact ⟨hk.trans hshown, hr⟩

theorem State.refreshPanel_keeps (s : State) (start : Time) (p : Panel) :
    RefreshKeeps s (s.refreshPanel start p).1 ∧ (s.refreshPanel start p).1.sco.refreshing = s.sco.refreshing := by
  have hsel : RefreshKeeps s (s.setFri { s.fri with eyes := s.fri.eyes.set p (s.fri.eyes.get p).select.2 }) :=
    ⟨fun _ => rfl, rfl, rfl, rfl⟩
  unfold State.refreshPanel
  split
  · simp only
    split
    · obtain ⟨h1, h2⟩ := State.showFrame_keeps
        (s.setFri { s.fri with eyes := s.fri.eyes.set p (s.fri.eyes.get p).select.2 }) p _ start 1 _ _ _
      exact ⟨hsel.trans h1, h2⟩
    · obtain ⟨h1, h2⟩ := State.showFrame_keeps
        (s.setFri { s.fri with eyes := s.fri.eyes.set p (s.fri.eyes.get p).select.2 }) p _ start 2 _ _ _
      exact ⟨hsel.trans h1, h2⟩
    · exact ⟨hsel.trans (RefreshKeeps.setPanel _ rfl), rfl⟩
  · exact ⟨.refl s, rfl⟩

theorem State.finishRefresh_refreshKeeps (s : State) : RefreshKeeps s s.finishRefresh := by
  cases h : s.sco.refreshing with
  | none =>
    rw [State.finishRefresh_idle h]
    exact .refl s
  | some r =>
    rw [State.finishRefresh_some h]
    have h0 : RefreshKeeps s (s.setSco { s.sco with refreshing := none }) := ⟨fun _ => rfl, rfl, rfl, rfl⟩
    have h1 := State.refreshPanel_keeps (s.setSco { s.sco with refreshing := none }) r.start r.panel
    exact (h0.trans h1.1).trans (State.reportIf_only _ _ _ _).refreshKeeps

/-- The refresh timer set, before any panel's work. -/
def State.refreshSet (s : State) (due : Nat) : State :=
  s.setSco { s.sco with latestRefresh := s.tas.now, refreshDue := some (due + us s.refreshPeriod) }

/-- One panel's work taken, the other's still to be. -/
def State.refreshHalf (s : State) (p : Panel) (due : Nat) : State :=
  let w := (s.refreshSet due).refreshPanel s.tas.now p
  w.1.setSco { w.1.sco with refreshing := some ⟨s.tas.now, otherPanel p, w.2⟩ }

theorem State.beginRefresh_eq (s : State) (p : Panel) (due : Nat) : s.beginRefresh p due =
    if (s.panel p).state = .showing ∧ (s.panel (otherPanel p)).state = .showing then s.refreshHalf p due
    else (s.refreshHalf p due).finishRefresh := rfl

theorem State.beginRefresh_keeps (s : State) (p : Panel) (due : Nat) :
    RefreshKeeps (s.refreshSet due) (s.beginRefresh p due) := by
  have h1 := (State.refreshPanel_keeps (s.refreshSet due) s.tas.now p).1
  have h2 : RefreshKeeps (s.refreshSet due) (s.refreshHalf p due) := ⟨h1.states, h1.due, h1.latest, h1.turns⟩
  rw [State.beginRefresh_eq]
  split
  · exact h2
  · exact h2.trans (State.finishRefresh_refreshKeeps _)

theorem State.deliverRefresh_keeps (s : State) (due : Nat) :
    RefreshKeeps ((s.setTurns s.turns.tail).refreshSet due) (s.deliverRefresh due) := by
  unfold State.deliverRefresh
  simp only
  split
  · exact (State.beginRefresh_keeps _ _ _).trans (State.finishRefresh_refreshKeeps _)
  · exact State.beginRefresh_keeps _ _ _

/-! ## Panels Show and Panels Standby -/

section panelsShow
variable {b : Byte} {names : List Panel} {s : State}

theorem panelsShow_state (h : panelSetOfCode b.toNat = some names)
    (hs : s.fri.mode = none ∨ ∃ p ∈ names, (s.panel p).state ≠ .standby) :
    panelsShow [b] s = ⟨.state, s.panelFields b, s⟩ := by
  unfold panelsShow
  rw [panelsNamed_ok h]
  refine if_pos ?_
  rcases hs with hm | hp
  · rw [hm]
    rfl
  · rw [Bool.or_eq_true]
    exact .inr (by simpa using hp)

theorem panelsShow_shows (h : panelSetOfCode b.toNat = some names) (hm : s.fri.mode ≠ none)
    (hs : ∀ p ∈ names, (s.panel p).state = .standby) : panelsShow [b] s =
      (if s.sco.anyShowing then
        s.setSco { s.sco with panels := s.panelsWith names fun c =>
          { c with state := .showing, applied := 0, window := none } }
      else (s.setSco { s.sco with panels := s.panelsWith names fun c =>
          { c with state := .showing, applied := 0, window := none } }).deliverRefresh s.osc).panelAnswer .done [b] := by
  unfold panelsShow
  rw [panelsNamed_ok h]
  refine (if_neg ?_).trans ?_
  · rw [Bool.or_eq_true, Option.isNone_iff_eq_none]
    simpa [hm] using hs
  · rw [State.updatePanels_eq (panelSetOfCode_nodup h)]

theorem panelsStandby_state (h : panelSetOfCode b.toNat = some names)
    (hs : ∃ p ∈ names, (s.panel p).state ≠ .standby ∧ (s.panel p).state ≠ .showing) :
    panelsStandby [b] s = ⟨.state, s.panelFields b, s⟩ := by
  unfold panelsStandby
  rw [panelsNamed_ok h]
  refine if_pos (List.any_eq_true.mpr ?_)
  obtain ⟨p, hp, h1, h2⟩ := hs
  refine ⟨p, hp, ?_⟩
  unfold PanelCtl.ramping
  cases hst : (s.panel p).state <;> simp_all

theorem panelsStandby_leaves (h : panelSetOfCode b.toNat = some names)
    (hs : ∀ p ∈ names, (s.panel p).state = .standby ∨ (s.panel p).state = .showing) : panelsStandby [b] s =
      (s.setSco { s.sco with
        panels := s.panelsWith names fun c => c.leave .standby }).settleRefresh.panelAnswer .done [b] := by
  unfold panelsStandby
  rw [panelsNamed_ok h]
  refine (if_neg fun hc => ?_).trans ?_
  · obtain ⟨p, hp, hc⟩ := List.any_eq_true.mp hc
    unfold PanelCtl.ramping at hc
    rcases hs p hp with e | e <;> simp [e] at hc
  · rw [State.updatePanels_eq (panelSetOfCode_nodup h)]

end panelsShow

/-- The pair of a function's two values. -/
theorem State.panelsWith_eq {s : State} {names : List Panel} {f : PanelCtl → PanelCtl} {g : Panel → PanelCtl}
    (h : ∀ p, g p = if p ∈ names then f (s.panel p) else s.panel p) : s.panelsWith names f = ⟨g .left, g .right⟩ := by
  rw [h, h]
  rfl

/-- Settles O31, by the panels' states, and for a panel left SHOWING by the refresh start that waits for it. -/
theorem panelsShowAndStandby : Obligations.PanelsShowAndStandby := by
  intro tag b names s hn after states
  refine ⟨fun h => ⟨fun m hm hs => ?_, fun hs => ?_⟩, fun h => ⟨fun hs => ?_, fun hs => ?_⟩⟩
  · intro x
    have hpair : s.popRequest.panelsWith names (fun c => { c with state := .showing, applied := 0, window := none }) =
        ⟨after .showing .left, after .showing .right⟩ := State.panelsWith_eq fun p => rfl
    have ha := panelsShow_shows (s := s.popRequest) hn (by rw [State.popRequest_fri, hm]; nofun) hs
    rw [hpair] at ha
    rw [exec_panelsShow]
    cases hany : s.sco.anyShowing with
    | true =>
      rw [if_pos (show s.popRequest.sco.anyShowing = true from hany)] at ha
      obtain ⟨t, ht, hmv, hans⟩ := State.immediate_answers h ha rfl
      exact ⟨t, ht, hans, fun _ => hmv, fun hc => by cases hc⟩
    | false =>
      rw [if_neg (by rw [State.popRequest_sco, hany]; decide)] at ha
      have hk := State.deliverRefresh_keeps x s.osc
      have hser := (Delivers.deliverRefresh x s.osc).serial
      have hst : ∀ p, ((x.deliverRefresh s.osc).panel p).state = (after .showing p).state := fun p => by
        rw [hk.states]
        cases p <;> rfl
      have hfields : (x.deliverRefresh s.osc).panelFields b = states (after .showing) := by
        unfold State.panelFields
        rw [hst, hst]
      obtain ⟨t, ht, hmv, hans⟩ := State.immediate_answers h ha hser
      have hans' : Answered s t 0x42 tag .done (states (after .showing)) :=
        Eq.mp (congrArg (Answered s t 0x42 tag .done) hfields) hans
      refine ⟨t, ht, hans', nofun, fun _ => ⟨hmv, fun p => ?_, ?_, ?_, ?_⟩⟩
      · rw [hmv.panel]
        exact hst p
      · rw [hmv.sco]
        refine hk.due.trans ?_
        have hper : ((x.setTurns x.turns.tail).refreshPeriod) = m.rate.period := by
          show (match s.fri.mode with
            | none => 0
            | some m => m.rate.period) = _
          rw [hm]
        show some (s.osc + us (x.setTurns x.turns.tail).refreshPeriod) = _
        rw [hper]
        rfl
      · rw [hmv.sco]
        exact hk.latest
      · rw [hmv.turns]
        exact hk.turns
  · rw [exec_panelsShow]
    exact State.immediate_answers h (panelsShow_state (s := s.popRequest) hn hs) rfl
  · intro showing x
    have hpair : s.popRequest.panelsWith names (fun c => c.leave .standby) =
        ⟨after .standby .left, after .standby .right⟩ := State.panelsWith_eq fun p => rfl
    have ha := panelsStandby_leaves (s := s.popRequest) hn hs
    rw [hpair] at ha
    rw [exec_panelsStandby]
    let y := s.popRequest.setSco { s.sco with panels := ⟨after .standby .left, after .standby .right⟩ }
    have hy : y.timerSettled = x := y.timerSettled_eq
    have hpanel : ∀ p, y.panel p = after .standby p := fun p => by cases p <;> rfl
    have hser := (Delivers.settleRefresh y).serial
    obtain ⟨t, ht, hmv, hans⟩ := State.immediate_answers h ha hser
    have quiet : (∀ r, s.sco.refreshing = some r → (after .standby r.panel).state = .showing) →
        y.settleRefresh = x := fun hq => by
      rw [State.settleRefresh_quiet fun r hr => by rw [hpanel]; exact hq r hr, hy]
    have done : ∀ r, s.sco.refreshing = some r → (after .standby r.panel).state ≠ .showing →
        OnlyMessages (x.setSco { x.sco with refreshing := none }) y.settleRefresh ∧
        (s.mge.enables.refresh = true → Reported y.settleRefresh .refresh (packTime r.start ++
          if r.panel = .left then List.replicate 10 0 ++ r.entry else r.entry ++ List.replicate 10 0)) :=
      fun r hr hp => by
      have hpx : (x.panel r.panel).state ≠ .showing := by
        have e : x.panel r.panel = after .standby r.panel := by cases r.panel <;> rfl
        rw [e]
        exact hp
      rw [State.settleRefresh_done (s := y) hr (by rw [hpanel]; exact hp), hy]
      exact State.finishRefresh_out (s := x) hr hpx
    have hfields : y.settleRefresh.panelFields b = states (after .standby) := by
      have hst : ∀ p, (y.settleRefresh.panel p).state = (after .standby p).state := fun p => by
        by_cases hq : ∀ r, s.sco.refreshing = some r → (after .standby r.panel).state = .showing
        · rw [quiet hq]
          cases p <;> rfl
        · obtain ⟨r, hr'⟩ := not_forall.mp hq
          obtain ⟨hr, hp⟩ := Classical.not_imp.mp hr'
          rw [(done r hr hp).1.panel]
          cases p <;> rfl
      unfold State.panelFields
      rw [hst, hst]
    have hrep := fun q : Report => State.immediate_outgoingReports (r := q) h ha ht
    have hans' : Answered s t 0x43 tag .done (states (after .standby)) :=
      Eq.mp (congrArg (Answered s t 0x43 tag .done) hfields) hans
    refine ⟨t, ht, hans', fun hq => ?_, fun r hr hp => ⟨?_, fun hon => ?_⟩⟩
    · have e := quiet hq
      rw [← e]
      exact hmv
    · exact (done r hr hp).1.trans hmv
    · exact (hrep _).mpr ((done r hr hp).2 hon)
  · rw [exec_panelsStandby]
    exact State.immediate_answers h (panelsStandby_state (s := s.popRequest) hn hs) rfl

/-! ## Settings and queries -/

theorem exec_setEmission (tag : Byte) (ps : List Byte) (s : State) :
    exec (.setEmission tag ps) s = s.immediate 0x44 tag ps setEmission := rfl
theorem exec_setPanelGeometry (tag : Byte) (ps : List Byte) (s : State) :
    exec (.setPanelGeometry tag ps) s = s.immediate 0x45 tag ps setPanelGeometry := rfl
theorem exec_readScanStatus (tag : Byte) (ps : List Byte) (s : State) :
    exec (.readScanStatus tag ps) s = s.immediate 0x46 tag ps readScanStatus := rfl
theorem exec_readPictureStatus (tag : Byte) (ps : List Byte) (s : State) :
    exec (.readPictureStatus tag ps) s = s.immediate 0x39 tag ps readPictureStatus := rfl

theorem setEmission_sets {ps : List Byte} {names : List Panel} {s : State} (hl : ps.length = 3)
    (hn : panelSetOfCode (field ps 0 1) = some names) : setEmission ps s =
      let t := s.setSco { s.sco with
        panels := s.panelsWith names fun c => { c with requested := min (field ps 1 2) 1023 } }
      ⟨.done, pack16 (t.panel .left).requested ++ pack16 (t.panel .right).requested, t⟩ := by
  unfold setEmission
  rw [if_neg (not_not.mpr hl), hn]
  simp only [State.updatePanels_eq (panelSetOfCode_nodup hn)]

theorem setPanelGeometry_sets {ps : List Byte} {s : State} (hl : ps.length = 6) : setPanelGeometry ps s =
    let g : Geometry := ⟨max 256 (min 16384 (field ps 0 2)), max 256 (min 16384 (field ps 2 2)),
      min (field ps 4 2) 5000⟩
    ⟨.done, pack16 g.ppdH ++ pack16 g.ppdV ++ pack16 g.latency, s.setSco { s.sco with geometry := g }⟩ :=
  if_neg (not_not.mpr hl)

/-- Settles O32. -/
theorem scanSettingsAndQueries : Obligations.ScanSettingsAndQueries := by
  refine ⟨fun tag ps names s h hl hn => ?_, fun tag ps s h hl => ?_, fun tag b s h => ?_, fun tag b s h => ?_⟩
  · rw [exec_setEmission]
    obtain ⟨t, ht, hm, hans⟩ := State.immediate_answers h (setEmission_sets (s := s.popRequest) hl hn) rfl
    have hsco := hm.sco
    have hp := fun p => hm.panel p
    refine ⟨t, ht, by rw [hsco]; exact hm, fun p => ?_, by rw [hsco]; rfl, by rw [hsco]; rfl, ?_⟩
    · rw [hp]
      exact State.panelsWith_get _ _ _ p
    · rw [hp, hp]
      exact hans
  · intro g
    rw [exec_setPanelGeometry]
    exact State.immediate_answers h (setPanelGeometry_sets (s := s.popRequest) hl) rfl
  · rw [exec_readScanStatus]
    exact State.immediate_cleared h s.popRequest.setSco rfl (fun _ => rfl) (if_neg (by simp))
  · rw [exec_readPictureStatus]
    exact State.immediate_cleared h s.popRequest.setFri rfl (fun _ => rfl) (if_neg (by simp))

end Sys2Proof.Machine
end

section
/-! A refresh start (5.2.2): each panel's work, the turn that takes it, and what a panel port shows. -/

namespace Sys2Proof.Machine

/-! ## One panel's work -/

/-- An eye's refresh selection made. -/
def State.selected (s : State) (p : Panel) : State :=
  s.setFri { s.fri with eyes := s.fri.eyes.set p (s.fri.eyes.get p).select.2 }

section refreshPanel
variable {s : State} {p : Panel} {m : DisplayMode} {frame : BitVec 16} {tag : Seq} {ns : Bool}

theorem State.refreshPanel_nothing (start : Time) (h : (s.panel p).state = .showing)
    (hs : (s.fri.eyes.get p).select.1 = .nothing) : s.refreshPanel start p =
      ((s.selected p).setPanel p { s.panel p with applied := 0, sx := 0, sy := 0, window := none },
        refreshEntry 3 0 0 0 0 0) := by
  unfold State.refreshPanel
  rw [if_pos h]
  simp only [hs]
  rfl

theorem State.refreshPanel_fresh (start : Time) (h : (s.panel p).state = .showing) (hm : s.fri.mode = some m)
    (hs : (s.fri.eyes.get p).select.1 = .fresh frame tag ns) :
    s.refreshPanel start p = (s.selected p).showFrame p m start 1 frame tag ns := by
  unfold State.refreshPanel
  rw [if_pos h]
  simp only [hs, hm, State.selected]

theorem State.refreshPanel_again (start : Time) (h : (s.panel p).state = .showing) (hm : s.fri.mode = some m)
    (hs : (s.fri.eyes.get p).select.1 = .again frame tag ns) :
    s.refreshPanel start p = (s.selected p).showFrame p m start 2 frame tag ns := by
  unfold State.refreshPanel
  rw [if_pos h]
  simp only [hs, hm, State.selected]

end refreshPanel

theorem State.showFrame_clean {s : State} {p : Panel} {m : DisplayMode} {start : Time} {code : Nat}
    {frame : BitVec 16} {tag : Seq} {ns : Bool} (hs : (s.shiftFor m start tag ns).1.stale = false)
    (hc : (s.shiftFor m start tag ns).1.clamped = false) : (s.showFrame p m start code frame tag ns).1 =
      (s.shiftFor m start tag ns).2.shownWith p m (s.shiftFor m start tag ns).1 := by
  rw [State.showFrame_eq]
  exact if_neg (by rw [hs, hc]; decide)

theorem State.showFrame_flagged {s : State} {p : Panel} {m : DisplayMode} {start : Time} {code : Nat}
    {frame : BitVec 16} {tag : Seq} {ns : Bool}
    (h : (s.shiftFor m start tag ns).1.stale = true ∨ (s.shiftFor m start tag ns).1.clamped = true) :
    OnlyMessages (((s.shiftFor m start tag ns).2.shownWith p m (s.shiftFor m start tag ns).1).withBits bitPicture)
      (s.showFrame p m start code frame tag ns).1 := by
  rw [State.showFrame_eq]
  simp only [if_pos (Bool.or_eq_true _ _ ▸ h)]
  exact State.setSummary_only _ _

/-! ## The refresh start and its turn -/

theorem exec_refreshStart_half {s : State} {r : Refreshing} (hp : s.powered = true) (h : s.sco.refreshing = some r) :
    exec .refreshStart s = .next s.finishRefresh := by
  have he : exec .refreshStart s = execRefreshStart s := rfl
  rw [he, execRefreshStart, State.live_powered hp, h]
  rfl

theorem exec_refreshStart_due {s : State} {due : Nat} (hp : s.powered = true) (h : s.sco.refreshing = none)
    (hd : s.sco.refreshDue = some due) :
    exec .refreshStart s = .next ((s.advanceTo due).deliverRefresh due) := by
  have he : exec .refreshStart s = execRefreshStart s := rfl
  rw [he, execRefreshStart, State.live_powered hp, h]
  simp only [hd]
  rfl

theorem exec_refreshStart_stopped {s : State} (hp : s.powered = true) (h : s.sco.refreshing = none)
    (hd : s.sco.refreshDue = none) : exec .refreshStart s = .next s := by
  have he : exec .refreshStart s = execRefreshStart s := rfl
  rw [he, execRefreshStart, State.live_powered hp, h]
  simp only [hd]
  rfl

/-- The report that ends a refresh start. -/
def State.refreshEnds (x t : State) (fields : List Byte) : Prop :=
  OnlyMessages x t ∧ (x.mge.enables.refresh = false → t = x) ∧
    (x.mge.enables.refresh = true → Reported t .refresh fields)

theorem State.reportIf_refreshEnds (x : State) (fields : List Byte) :
    x.refreshEnds (x.reportIf x.mge.enables.refresh .refresh fields) fields := by
  refine ⟨State.reportIf_only _ _ _ _, fun h => ?_, fun h => ?_⟩
  · rw [h]
    rfl
  · rw [h]
    exact State.reportIf_reported _ _ _

/-- Both panels' works, one after the other with nothing between, and the report. -/
theorem State.refreshHalf_finish {s : State} (p : Panel) (due : Nat) (h : s.sco.refreshing = none) :
    (s.refreshHalf p due).finishRefresh =
      let w := (s.refreshSet due).refreshPanel s.tas.now p
      let v := w.1.refreshPanel s.tas.now (otherPanel p)
      v.1.reportIf v.1.mge.enables.refresh .refresh (refreshFields s.tas.now (otherPanel p) v.2 w.2) := by
  have hw : ((s.refreshSet due).refreshPanel s.tas.now p).1.sco.refreshing = none :=
    (State.refreshPanel_keeps _ _ _).2.trans h
  have hback : (s.refreshHalf p due).setSco { (s.refreshHalf p due).sco with refreshing := none } =
      ((s.refreshSet due).refreshPanel s.tas.now p).1 := by
    unfold State.refreshHalf
    simp only [State.setSco]
    rw [← hw]
  rw [State.finishRefresh_some (r := ⟨s.tas.now, otherPanel p, ((s.refreshSet due).refreshPanel s.tas.now p).2⟩) rfl,
    hback]

theorem State.reportIf_sco (s : State) (on : Bool) (k : ReportKind) (f : List Byte) :
    (s.reportIf on k f).sco = s.sco := (State.reportIf_only _ _ _ _).sco

theorem State.refreshHalf_finish_refreshing {s : State} (p : Panel) (due : Nat) (h : s.sco.refreshing = none) :
    (s.refreshHalf p due).finishRefresh.sco.refreshing = none := by
  rw [State.refreshHalf_finish p due h]
  simp only [State.reportIf_sco]
  exact (State.refreshPanel_keeps _ _ _).2.trans ((State.refreshPanel_keeps _ _ _).2.trans h)

/-- With both works taken in one event, left first, it does not matter which panels take part. -/
theorem State.deliverRefresh_both {s : State} (due : Nat) (h : s.sco.refreshing = none)
    (ht : s.turns.headD .both = .both) :
    s.deliverRefresh due = ((s.setTurns s.turns.tail).refreshHalf .left due).finishRefresh := by
  unfold State.deliverRefresh
  simp only [ht, State.beginRefresh_eq]
  split
  · rfl
  · exact State.finishRefresh_idle (State.refreshHalf_finish_refreshing (s := s.setTurns s.turns.tail) .left due h)

theorem State.deliverRefresh_only {s : State} {p : Panel} (due : Nat) (ht : s.turns.headD .both = .only p) :
    s.deliverRefresh due = (s.setTurns s.turns.tail).beginRefresh p due := by
  unfold State.deliverRefresh
  simp only [ht]

theorem eq_otherPanel {p q : Panel} (h : q ≠ p) : q = otherPanel p := by
  cases p <;> cases q
  · exact absurd rfl h
  · rfl
  · rfl
  · exact absurd rfl h

/-! ## What a panel port shows -/

theorem take_three_drop {α : Type} {l : List α} {k : Nat} (h : k + 3 ≤ l.length) (d : α) :
    (l.drop k).take 3 = [l.getD k d, l.getD (k + 1) d, l.getD (k + 2) d] := by
  have h1 : k < l.length := by omega
  have h2 : k + 1 < l.length := by omega
  have h3 : k + 1 + 1 < l.length := by omega
  rw [List.drop_eq_getElem_cons h1, List.drop_eq_getElem_cons h2, List.drop_eq_getElem_cons h3,
    List.getD_eq_getElem l d h1, List.getD_eq_getElem l d h2, List.getD_eq_getElem l d h3]
  simp only [List.take_succ_cons, List.take_zero]

theorem State.panelPixel_dark {s : State} {p : Panel} (column line : Nat)
    (h : (s.panel p).window = none ∨ (s.fri.eyes.get p).inState .scanning = []) :
    s.panelPixel p column line = none := by
  unfold State.panelPixel
  rcases h with h | h
  · simp only [h]
  · cases hw : (s.panel p).window <;> simp only [h, List.head?_nil]

theorem State.panelPixel_lit {s : State} {p : Panel} {w : Window} {i : Fin 3} {row : List Byte} {column line : Nat}
    (hw : (s.panel p).window = some w) (hi : ((s.fri.eyes.get p).inState .scanning).head? = some i)
    (hr : (s.fri.eyes.get p).slots[i].lines[w.line + line]? = some row) :
    s.panelPixel p column line = some ((row.drop (3 * (w.column + column))).take 3) := by
  unfold State.panelPixel
  simp only [hw, hi, hr]
  rfl

/-- Settles O33, by the selection of the panel's eye; REFRESH_START by the turn, whose two works the report joins. -/
theorem refreshStartAppliesEmission : Obligations.RefreshStartAppliesEmission := by
  unfold Obligations.RefreshStartAppliesEmission
  intro zeros
  refine ⟨fun p start m a hm => ?_, fun s m hp hm => ?_, fun s hp hr hd => exec_refreshStart_stopped hp hr hd,
    fun s p column line => ?_⟩
  · intro b entry c sel x shows
    have shown : ∀ code frame tag ns, a.refreshPanel start p = x.showFrame p m start code frame tag ns →
        shows code frame tag ns := fun code frame tag ns hb => by
      let h : Shift := if ns then ⟨0, 0, false, false, false⟩
        else lateShift m a.sco.geometry start (a.ori.lookup tag start).1
      let y := if ns then x else x.setOri (a.ori.lookup tag start).2
      let applied := min c.requested a.emissionCap
      let z := y.shownWith p m h
      have hsh : x.shiftFor m start tag ns = (h, y) := by
        cases ns <;> rfl
      have hcap : min (y.panel p).requested y.emissionCap = applied := by
        cases ns <;> rfl
      have h1 : (x.shiftFor m start tag ns).1 = h := by rw [hsh]
      have h2 : (x.shiftFor m start tag ns).2 = y := by rw [hsh]
      refine ⟨fun hs hc => ?_, fun hf => ?_, ?_⟩
      · have hcl := State.showFrame_clean (s := x) (p := p) (code := code) (frame := frame)
          (by rw [h1]; exact hs) (by rw [h1]; exact hc)
        rw [h1, h2, ← hb] at hcl
        refine hcl.trans ?_
        cases ns <;> rfl
      · have hfl := State.showFrame_flagged (s := x) (p := p) (code := code) (frame := frame) (by rw [h1]; exact hf)
        rw [h1, h2, ← hb] at hfl
        refine Eq.mp (congrArg (fun t : State => OnlyMessages (t.withBits bitPicture) b) ?_) hfl
        cases ns <;> rfl
      · show (a.refreshPanel start p).2 = _
        rw [hb, State.showFrame_eq]
        simp only [h1, h2, hcap]
        rfl
    refine ⟨fun hc => ?_, fun hc => ⟨fun hs => ?_, fun frame tag ns hs => ?_, fun frame tag ns hs => ?_⟩⟩
    · have hout := State.refreshPanel_out (start := start) hc
      exact ⟨congrArg Prod.fst hout, congrArg Prod.snd hout⟩
    · have hno := State.refreshPanel_nothing start hc hs
      exact ⟨congrArg Prod.fst hno, congrArg Prod.snd hno⟩
    · exact shown _ _ _ _ (State.refreshPanel_fresh start hc hm hs)
    · exact shown _ _ _ _ (State.refreshPanel_again start hc hm hs)
  · intro ends
    have ended : ∀ (x : State) (f g : List Byte), exec .refreshStart s =
        .next (x.reportIf x.mge.enables.refresh .refresh f) → f = g → ends x g := fun x f g he hfg =>
      ⟨_, he, hfg ▸ x.reportIf_refreshEnds f⟩
    refine ⟨fun due hr hd => ?_, fun r hr => ?_⟩
    · intro start u
      have hu : ((s.advanceTo due).setTurns s.turns.tail).refreshSet due = u := by
        unfold State.refreshSet State.refreshPeriod
        simp only [State.setTurns_fri, State.advanceTo_fri, hm, State.setTurns_sco, State.advanceTo_sco]
        rfl
      have he := exec_refreshStart_due hp hr hd
      have hidle : (s.advanceTo due).sco.refreshing = none := by rw [State.advanceTo_sco, hr]
      refine ⟨fun ht => ?_, fun p q ht hq => ?_⟩
      · intro l r
        rw [State.deliverRefresh_both due hidle (by rw [State.advanceTo_turns]; exact ht), State.advanceTo_turns,
          State.refreshHalf_finish .left due (by exact hidle)] at he
        simp only [hu] at he
        exact ended r.1 _ _ he (by
          rw [refreshFields_eq]
          exact (List.append_assoc _ _ _).symm)
      · intro w v
        rw [State.deliverRefresh_only due (by rw [State.advanceTo_turns]; exact ht), State.advanceTo_turns,
          State.beginRefresh_eq] at he
        cases eq_otherPanel hq
        refine ⟨fun hb => ?_, fun hb => ?_⟩
        · rw [if_pos (by exact hb)] at he
          unfold State.refreshHalf at he
          simp only [hu] at he
          exact he
        · rw [if_neg (by
            intro hc
            rcases hb with hb | hb
            · exact hb hc.1
            · exact hb hc.2), State.refreshHalf_finish p due (by exact hidle)] at he
          simp only [hu] at he
          exact ended v.1 _ _ he (by
            rw [refreshFields_eq]
            cases p <;> rfl)
    · intro w
      have he := exec_refreshStart_half hp hr
      rw [State.finishRefresh_some hr] at he
      exact ended w.1 _ _ he (refreshFields_eq _ _ _ _)
  · intro e
    refine ⟨fun h => State.panelPixel_dark _ _ (h.imp_right Eye.head_inState_none), fun w i row hw hi hr => ?_⟩
    intro k hk
    have hhead := Eye.head_inState ((hi i).mpr rfl) fun j hj hs => absurd ((hi j).mp hs) (Fin.ne_of_lt hj)
    rw [State.panelPixel_lit hw hhead hr, take_three_drop hk]

end Sys2Proof.Machine
end

section
/-! The audio requests (6.4 to 6.6), the scaling of output samples, and the frames the port sends. -/

namespace Sys2Proof.Machine

/-! ## Scaled magnitudes (R105) -/

section powers
variable {a m k c : Nat}

theorem le_of_pow_mul_le (hk : k ≠ 0) (hc : 0 < c) (h : a ^ k * c ≤ m ^ k) : a ≤ m :=
  (Nat.pow_le_pow_iff_left hk).mp ((Nat.le_mul_of_pos_right _ hc).trans h)

theorem pow_lt_pow_mul (hk : k ≠ 0) (hc : 0 < c) (h : m < a) : m ^ k < a ^ k * c :=
  Nat.lt_of_lt_of_le (Nat.pow_lt_pow_left h hk) (Nat.le_mul_of_pos_right _ hc)

/-- `n` is one of the two whole values next to the `k`th root of `m` to the `k`, divided by `c`, or it itself. -/
structure IsRoot (k c m n : Nat) : Prop where
  le : n ≤ m
  below : m ^ k < (n + 1) ^ k * c
  above : n ≠ 0 → (n - 1) ^ k * c < m ^ k

theorem IsRoot.floor (hk : k ≠ 0) (hc : 0 < c) (hle : a ^ k * c ≤ m ^ k) (hlt : m ^ k < (a + 1) ^ k * c) :
    IsRoot k c m a := by
  refine ⟨le_of_pow_mul_le hk hc hle, hlt, fun h0 => Nat.lt_of_lt_of_le ?_ hle⟩
  exact Nat.mul_lt_mul_of_pos_right (Nat.pow_lt_pow_left (Nat.sub_one_lt h0) hk) hc

theorem IsRoot.ceil (hk : k ≠ 0) (hc : 0 < c) (hle : a ^ k * c < m ^ k) (hlt : m ^ k < (a + 1) ^ k * c) :
    IsRoot k c m (a + 1) := by
  refine ⟨(Nat.pow_lt_pow_iff_left hk).mp (Nat.lt_of_le_of_lt (Nat.le_mul_of_pos_right _ hc) hle), ?_, fun _ => hle⟩
  exact Nat.lt_of_lt_of_le hlt (Nat.mul_le_mul_right _ (Nat.pow_le_pow_left (Nat.le_succ _) _))

/-- The floor, or the next value where the floor is not exact. -/
theorem IsRoot.either (hk : k ≠ 0) (hc : 0 < c) (up : Bool) (hle : a ^ k * c ≤ m ^ k)
    (hlt : m ^ k < (a + 1) ^ k * c) :
    IsRoot k c m (if a ^ k * c = m ^ k then a else if up then a + 1 else a) := by
  by_cases he : a ^ k * c = m ^ k
  · rw [if_pos he]
    exact .floor hk hc hle hlt
  · rw [if_neg he]
    cases up with
    | false => exact .floor hk hc hle hlt
    | true => exact .ceil hk hc (lt_of_le_of_ne hle he) hlt

theorem IsRoot.exact (hk : k ≠ 0) (up : Bool) (hle : a ^ k ≤ m ^ k) (hlt : m ^ k < (a + 1) ^ k) :
    (if a ^ k = m ^ k then a else if up then a + 1 else a) = m := by
  have ha : a = m := Nat.le_antisymm ((Nat.pow_le_pow_iff_left hk).mp hle)
    (Nat.lt_succ_iff.mp ((Nat.pow_lt_pow_iff_left hk).mp hlt))
  rw [ha, if_pos rfl]

end powers

theorem ten_pow_pos (n : Nat) : 0 < 10 ^ n := Nat.pow_pos (Nat.succ_pos 9)

theorem scaledAtLeast_iff {att m n : Nat} : scaledAtLeast att m n = true ↔ n ^ 40 * 10 ^ att ≤ m ^ 40 :=
  decide_eq_true_iff

theorem scaledAtLeast_eq_false {att m n : Nat} : scaledAtLeast att m n = false ↔ m ^ 40 < n ^ 40 * 10 ^ att :=
  decide_eq_false_iff_not.trans Nat.not_le

/-- The whole part of the scaled magnitude of a sample's magnitude. -/
theorem scaledFloor_sample (att : Nat) {m : Nat} (h : m < 65536) :
    scaledFloor att m 16 0 ^ 40 * 10 ^ att ≤ m ^ 40 ∧ m ^ 40 < (scaledFloor att m 16 0 + 1) ^ 40 * 10 ^ att := by
  have hpos := ten_pow_pos att
  have h0 : scaledAtLeast att m 0 = true := scaledAtLeast_iff.mpr (by
    rw [Nat.zero_pow (by decide), Nat.zero_mul]
    exact Nat.zero_le _)
  have h16 : scaledAtLeast att m (0 + 2 ^ 16) = false :=
    scaledAtLeast_eq_false.mpr (pow_lt_pow_mul (by decide) hpos (by omega))
  obtain ⟨hle, hlt⟩ := scaledFloor_spec att m 16 0 h0 h16
  exact ⟨scaledAtLeast_iff.mp hle, scaledAtLeast_eq_false.mp hlt⟩

theorem scaledMagnitude_eq (att m : Nat) (up : Bool) : scaledMagnitude att m up =
    if scaledFloor att m 16 0 ^ 40 * 10 ^ att = m ^ 40 then scaledFloor att m 16 0
    else if up then scaledFloor att m 16 0 + 1 else scaledFloor att m 16 0 := by
  unfold scaledMagnitude
  with_reducible rfl

theorem scaledMagnitude_isRoot (att : Nat) {m : Nat} (up : Bool) (h : m < 65536) :
    IsRoot 40 (10 ^ att) m (scaledMagnitude att m up) := by
  obtain ⟨hle, hlt⟩ := scaledFloor_sample att h
  rw [scaledMagnitude_eq]
  exact .either (by decide) (ten_pow_pos att) up hle hlt

/-- Without attenuation the magnitude stays. -/
theorem scaledMagnitude_zero {m : Nat} (up : Bool) (h : m < 65536) : scaledMagnitude 0 m up = m := by
  obtain ⟨hle, hlt⟩ := scaledFloor_sample 0 h
  rw [Nat.pow_zero, Nat.mul_one] at hle hlt
  rw [scaledMagnitude_eq, Nat.pow_zero, Nat.mul_one]
  exact IsRoot.exact (by decide) up hle hlt

theorem sample_bounds (w : BitVec 16) : -32768 ≤ w.toInt ∧ w.toInt < 32768 :=
  ⟨BitVec.le_toInt w, BitVec.toInt_lt (x := w)⟩

theorem sample_natAbs (w : BitVec 16) : w.toInt.natAbs < 65536 := by
  have := sample_bounds w
  omega

/-- A value of the sample's sign and no greater magnitude is a 16-bit one. -/
theorem toInt_ofInt_scaled (w : BitVec 16) {n : Nat} (h : n ≤ w.toInt.natAbs) :
    (BitVec.ofInt 16 (w.toInt.sign * n)).toInt = w.toInt.sign * n := by
  obtain ⟨hlo, hhi⟩ := sample_bounds w
  rw [BitVec.toInt_ofInt]
  rcases lt_trichotomy w.toInt 0 with h0 | h0 | h0
  · rw [Int.sign_eq_neg_one_of_neg h0]
    exact Int.bmod_eq_of_le (by omega) (by omega)
  · rw [h0, Int.sign_zero]
    exact Int.bmod_eq_of_le (by omega) (by omega)
  · rw [Int.sign_eq_one_of_pos h0]
    exact Int.bmod_eq_of_le (by omega) (by omega)

/-- A sample below the mute has its own sign and its scaled magnitude. -/
theorem outputSample_toInt {att : Nat} (w : BitVec 16) (h : att < 255) : (outputSample att w).toInt =
    w.toInt.sign * scaledMagnitude att w.toInt.natAbs (Config.attenuateUp att w) := by
  unfold outputSample
  rw [if_neg (by omega)]
  exact toInt_ofInt_scaled w (scaledMagnitude_isRoot att _ (sample_natAbs w)).le

theorem outputSample_mute {att : Nat} (w : BitVec 16) (h : 255 ≤ att) : outputSample att w = 0 := if_pos h

theorem natAbs_sign_mul {i : Int} {n : Nat} (h : n ≤ i.natAbs) : (i.sign * n).natAbs = n := by
  rw [Int.natAbs_mul, Int.natAbs_natCast]
  by_cases h0 : i = 0
  · rw [h0] at h ⊢
    rw [Nat.le_zero.mp h, Nat.mul_zero]
  · rw [Int.natAbs_sign_of_ne_zero h0, Nat.one_mul]

/-- The magnitude sent is the scaled one. -/
theorem outputSample_natAbs {att : Nat} (w : BitVec 16) (h : att < 255) :
    IsRoot 40 (10 ^ att) w.toInt.natAbs (outputSample att w).toInt.natAbs := by
  have hs := scaledMagnitude_isRoot att (Config.attenuateUp att w) (sample_natAbs w)
  have hn := natAbs_sign_mul hs.le
  rw [← outputSample_toInt w h] at hn
  rwa [hn]

/-! ## Output frames -/

theorem State.outputFrame_silent {s : State} {t : Nat}
    (h : ∀ c, s.aud.current = some c → t < c.first ∨ c.ends ≤ t) : s.outputFrame t = (0, 0) := by
  unfold State.outputFrame
  cases hc : s.aud.current with
  | none => rfl
  | some c => exact if_neg (by have := h c hc; omega)

theorem State.outputFrame_sends {s : State} {t i : Nat} {c : CurrentBlock} (h : s.aud.current = some c)
    (hlo : c.first + i * 15625 ≤ t) (hhi : t < c.first + (i + 1) * 15625) (hend : t < c.ends) :
    s.outputFrame t = (outputSample s.attenuation (BitVec.ofNat 16 (field c.block.samples (4 * i) 2)),
      outputSample s.attenuation (BitVec.ofNat 16 (field c.block.samples (4 * i + 2) 2))) := by
  have hi : (t - c.first) / audioFrame = i := by
    unfold audioFrame
    omega
  unfold State.outputFrame
  rw [h]
  simp only [hi]
  exact if_pos (by omega)

/-! ## Requests -/

theorem exec_setAttenuation (tag : Byte) (ps : List Byte) (s : State) :
    exec (.setAttenuation tag ps) s = s.immediate 0x50 tag ps setAttenuation := rfl
theorem exec_startCapture (tag : Byte) (ps : List Byte) (s : State) :
    exec (.startCapture tag ps) s = s.immediate 0x51 tag ps startCapture := rfl
theorem exec_stopCapture (tag : Byte) (ps : List Byte) (s : State) :
    exec (.stopCapture tag ps) s = s.immediate 0x52 tag ps stopCapture := rfl
theorem exec_readAudioStatus (tag : Byte) (ps : List Byte) (s : State) :
    exec (.readAudioStatus tag ps) s = s.immediate 0x53 tag ps readAudioStatus := rfl

section startCapture
variable {ps : List Byte} {s : State}

theorem startCapture_starts (hl : ps.length = 3) (hc : field ps 2 1 = 1 ∨ field ps 2 1 = 2)
    (ho : s.aud.capturing = false) : startCapture ps s =
      ⟨.done, pack16 (max 48 (min 480 (field ps 0 2))) ++ pack8 (field ps 2 1) ++ packFlag true,
        s.setAud { s.aud with
          capturing := true, framesPerBlock := max 48 (min 480 (field ps 0 2)), channels := field ps 2 1
          partialBlock := none }⟩ :=
  (if_neg (not_not.mpr hl)).trans ((if_neg (by omega)).trans (if_neg (by rw [ho]; decide)))

theorem startCapture_state (hl : ps.length = 3) (hc : field ps 2 1 = 1 ∨ field ps 2 1 = 2)
    (ho : s.aud.capturing = true) : startCapture ps s = s.refuse .state :=
  (if_neg (not_not.mpr hl)).trans ((if_neg (by omega)).trans (if_pos ho))

theorem startCapture_range (hl : ps.length = 3) (h1 : field ps 2 1 ≠ 1) (h2 : field ps 2 1 ≠ 2) :
    startCapture ps s = s.refuse .range :=
  (if_neg (not_not.mpr hl)).trans (if_pos ⟨h1, h2⟩)

end startCapture

theorem State.attenuation_heard {s : State} (h : s.smp.presence ≠ .removed) :
    s.attenuation = max s.aud.requestedAtt s.pmg.row.minAttenuation := by
  unfold State.attenuation
  rw [if_neg h, Nat.max_zero]

theorem State.attenuation_removed {s : State} (h : s.smp.presence = .removed) :
    s.attenuation = max 255 (max s.aud.requestedAtt s.pmg.row.minAttenuation) := by
  unfold State.attenuation
  rw [if_pos h, Nat.max_comm]

/-- Settles O34. -/
theorem audioRequestsApplied : Obligations.AudioRequestsApplied := by
  refine ⟨fun tag ps s h hl => ?_, fun tag ps s h hl => ?_, fun tag s h => ?_, fun s => ?_, fun s t => ?_,
    fun att w => ?_, fun tag b s h => ?_⟩
  · intro x
    rw [exec_setAttenuation]
    exact State.immediate_answers h (if_neg (not_not.mpr hl)) rfl
  · intro n c
    rw [exec_startCapture]
    exact ⟨fun hc => ⟨fun ho => State.immediate_answers h (startCapture_starts (s := s.popRequest) hl hc ho) rfl,
      fun ho => State.immediate_refused h (startCapture_state (s := s.popRequest) hl hc ho)⟩,
      fun h1 h2 => State.immediate_refused h (startCapture_range (s := s.popRequest) hl h1 h2)⟩
  · rw [exec_stopCapture]
    exact State.immediate_answers h (if_neg (by simp)) rfl
  · intro row
    refine ⟨State.attenuation_heard, State.attenuation_removed, fun h hrow hreq => ?_⟩
    have hmin : s.pmg.row.minAttenuation ≤ 255 := (hrow.1 _).2
    rw [State.attenuation_removed h]
    omega
  · exact ⟨State.outputFrame_silent, fun c i hc hlo hhi hend => State.outputFrame_sends hc hlo hhi hend⟩
  · intro out n m
    refine ⟨fun h => ?_, fun h => ?_, fun h => ?_⟩
    · show (outputSample att w).toInt = 0
      rw [outputSample_mute w h]
      rfl
    · show (outputSample att w).toInt = _
      rw [h, outputSample_toInt w (by decide), scaledMagnitude_zero _ (sample_natAbs w), Int.sign_mul_natAbs]
    · have hsc : IsRoot 40 (10 ^ att) m n := outputSample_natAbs w h
      have hout : out = w.toInt.sign * scaledMagnitude att m (Config.attenuateUp att w) := outputSample_toInt w h
      refine ⟨fun hw => ?_, fun hw => ?_, hsc.below, hsc.above⟩
      · rw [hout]
        exact mul_nonneg (Int.sign_nonneg_iff.mpr hw) (Int.natCast_nonneg _)
      · rw [hout]
        exact mul_nonpos_of_nonpos_of_nonneg (Int.sign_nonpos_iff.mpr hw) (Int.natCast_nonneg _)
  · rw [exec_readAudioStatus]
    exact State.immediate_cleared h s.popRequest.setAud rfl (fun _ => rfl) (if_neg (by simp))

end Sys2Proof.Machine
end

section
/-! Playout (6.2, 6.3) and capture (6.5): the queue, the examination of its head, and the blocks gathered. -/

namespace Sys2Proof.Machine

/-! ## The queue and its examination -/

section examineQueue
variable {now : Nat} {b : AudioBlock} {l : List AudioBlock}

theorem examineQueue_waits (h : now + 250 < b.time.toNat) : examineQueue now (b :: l) = (.waits (b :: l), 0) :=
  if_pos h

theorem examineQueue_starts (h1 : b.time.toNat ≤ now + 250) (h2 : now ≤ b.time.toNat + 2000) :
    examineQueue now (b :: l) = (.starts b l, 0) :=
  (if_neg (Nat.not_lt.mpr h1)).trans (if_neg (Nat.not_lt.mpr h2))

theorem examineQueue_late (h : b.time.toNat + 2000 < now) :
    examineQueue now (b :: l) = ((examineQueue now l).1, (examineQueue now l).2 + 1) :=
  (if_neg (by omega)).trans (if_pos h)

theorem insertBlock_before {c : AudioBlock} (h : b.time.toNat < c.time.toNat) : insertBlock b (c :: l) = b :: c :: l :=
  if_pos h

theorem insertBlock_after {c : AudioBlock} (h : c.time.toNat < b.time.toNat) :
    insertBlock b (c :: l) = c :: insertBlock b l :=
  if_neg (Nat.not_lt.mpr (Nat.le_of_lt h))

end examineQueue

theorem audioBlockOf_none {payload : List Byte} (h : payload.length < 8 ∨ field payload 6 2 < 48 ∨
    480 < field payload 6 2 ∨ payload.length ≠ 8 + 4 * field payload 6 2) : audioBlockOf payload = none :=
  if_neg (by omega)

theorem audioBlockOf_some {payload : List Byte} (h1 : 48 ≤ field payload 6 2) (h2 : field payload 6 2 ≤ 480)
    (h3 : payload.length = 8 + 4 * field payload 6 2) : audioBlockOf payload =
      some ⟨BitVec.ofNat 48 (field payload 0 6), field payload 6 2, payload.drop 8⟩ :=
  if_pos (by omega)

theorem Aud.duplicates_iff {a : Aud} {b : AudioBlock} : a.duplicates b = true ↔
    (∃ x ∈ a.queue, x.time = b.time) ∨ ∃ x, a.current = some x ∧ x.block.time = b.time := by
  unfold Aud.duplicates
  rw [Bool.or_eq_true, List.any_eq_true]
  cases a.current <;> simp

/-- The first frame of a block that starts now is the next one on the port's cadence. -/
theorem Aud.frameAt_next {a : Aud} {t p : Nat} (h : a.portStart = some p) (hp : p ≤ t) :
    t ≤ a.frameAt t ∧ a.frameAt t < t + 15625 ∧ (a.frameAt t - p) % 15625 = 0 := by
  have hf : a.frameAt t = p + (t - p + 15624) / 15625 * 15625 := by
    unfold Aud.frameAt
    rw [h]
    rfl
  rw [hf]
  omega

section examine
variable {s : State} {n : Nat} {b : AudioBlock} {q : List AudioBlock}

theorem State.starve_still (h : s.aud.play = .starved) : s.starve = s := if_pos h

theorem State.starve_only (h : s.aud.play ≠ .starved) : OnlyMessages ((s.setAud { s.aud with
    play := .starved
    counters := { s.aud.counters with underrun := satInc s.aud.counters.underrun } }).withBits bitAudio) s.starve := by
  have he : s.starve = (s.setAud { s.aud with
    play := .starved
    counters := { s.aud.counters with underrun := satInc s.aud.counters.underrun } }).setSummary bitAudio := if_neg h
  rw [he]
  exact State.setSummary_only _ _

theorem State.examine_waits (first : Nat) (h : examineQueue s.tas.now.toNat s.aud.queue = (.waits q, n)) :
    s.examine first = s.setAud { s.aud with
      queue := q, play := .waiting, counters := { s.aud.counters with late := satAdd s.aud.counters.late n } } := by
  unfold State.examine
  rw [h]

theorem State.examine_starts (first : Nat) (h : examineQueue s.tas.now.toNat s.aud.queue = (.starts b q, n)) :
    s.examine first = s.setAud { s.aud with
      queue := q, current := some ⟨b, first, first + b.frames * 15625⟩, play := .playing
      counters := { s.aud.counters with
        late := satAdd s.aud.counters.late n, started := satInc s.aud.counters.started } } := by
  unfold State.examine
  rw [h]
  rfl

/-- The queue with its late heads discarded, none being left. -/
def State.queueEmptied (s : State) (n : Nat) : State :=
  s.setAud { s.aud with
    queue := [], counters := { s.aud.counters with late := satAdd s.aud.counters.late n } }

theorem State.examine_emptied (first : Nat) (h : examineQueue s.tas.now.toNat s.aud.queue = (.emptied, n)) :
    s.examine first = if s.aud.play = .idle then s.queueEmptied n else (s.queueEmptied n).starve := by
  unfold State.examine
  rw [h]
  rfl

end examine

/-! ## A block's arrival -/

section audioBlock
variable {s : State} {payload : List Byte} {b : AudioBlock}

theorem State.audioBlock_malformed (h : audioBlockOf payload = none) : s.audioBlock payload =
    s.setAud { s.aud with
      counters := { s.aud.counters with malformed := satInc s.aud.counters.malformed } } := by
  unfold State.audioBlock
  rw [h]

theorem State.audioBlock_duplicate (h : audioBlockOf payload = some b) (hd : s.aud.duplicates b = true) :
    s.audioBlock payload = s.setAud { s.aud with
      counters := { s.aud.counters with duplicate := satInc s.aud.counters.duplicate } } := by
  unfold State.audioBlock
  rw [h]
  exact if_pos hd

theorem State.audioBlock_overflow (h : audioBlockOf payload = some b) (hd : s.aud.duplicates b = false)
    (hl : 16 ≤ s.aud.queue.length) : s.audioBlock payload = (s.setAud { s.aud with
      counters := { s.aud.counters with
        playoutOverflow := satInc s.aud.counters.playoutOverflow } }).setSummary bitAudio := by
  unfold State.audioBlock
  rw [h]
  exact (if_neg (by rw [hd]; decide)).trans (if_pos hl)

theorem State.audioBlock_accepts (h : audioBlockOf payload = some b) (hd : s.aud.duplicates b = false)
    (hl : s.aud.queue.length < 16) : s.audioBlock payload = s.acceptBlock b := by
  unfold State.audioBlock
  rw [h]
  exact (if_neg (by rw [hd]; decide)).trans (if_neg (by omega))

/-- The state with an accepted block in the queue. -/
def State.withBlock (s : State) (b : AudioBlock) : State :=
  s.setAud { s.aud with queue := insertBlock b s.aud.queue }

theorem State.acceptBlock_playing (h : s.aud.play = .playing) : s.acceptBlock b = s.withBlock b := by
  unfold State.acceptBlock
  rw [h]
  rfl

theorem State.acceptBlock_stopped (h : s.aud.play = .idle ∨ s.aud.play = .starved) :
    s.acceptBlock b = (s.withBlock b).examine (s.aud.frameAt s.osc) := by
  unfold State.acceptBlock
  rcases h with h | h
  · rw [h]
    rfl
  · rw [h]
    rfl

theorem State.acceptBlock_waiting (h : s.aud.play = .waiting) : s.acceptBlock b =
    if (insertBlock b s.aud.queue).head? = some b then (s.withBlock b).examine (s.aud.frameAt s.osc)
    else s.withBlock b := by
  unfold State.acceptBlock
  rw [h]
  by_cases hh : (insertBlock b s.aud.queue).head? = some b
  · rw [if_pos hh]
    exact if_pos (decide_eq_true hh)
  · rw [if_neg hh]
    exact if_neg fun hc => hh (of_decide_eq_true hc)

end audioBlock

/-- Settles O35, by the checks of the payload, the playout state and the examination of a new head. -/
theorem audioBlockArrivalOutcomes : Obligations.AudioBlockArrivalOutcomes := by
  intro payload s n b now c next taken
  have hnext : next (s.aud.frameAt s.osc) := fun p hp hle => Aud.frameAt_next hp hle
  refine ⟨fun h => State.audioBlock_malformed (audioBlockOf_none h), fun h1 h2 h3 => ?_⟩
  have hb : audioBlockOf payload = some b := audioBlockOf_some h1 h2 h3
  refine ⟨fun ht => State.audioBlock_duplicate hb (Aud.duplicates_iff.mpr ht), fun ht => ?_⟩
  have hd : s.aud.duplicates b = false := Bool.eq_false_iff.mpr fun hc => ht (Aud.duplicates_iff.mp hc)
  refine ⟨fun hl => ?_, fun hl hp => ?_, fun h rest hl hp hq => ?_, fun hq hp => ?_⟩
  · rw [State.audioBlock_overflow hb hd hl]
    exact State.setSummary_only _ _
  · exact (State.audioBlock_accepts hb hd hl).trans (State.acceptBlock_playing hp)
  · have ha := (State.audioBlock_accepts hb hd hl).trans (State.acceptBlock_waiting hp)
    have headed : b.time.toNat < h.time.toNat →
        s.audioBlock payload = (s.withBlock b).examine (s.aud.frameAt s.osc) ∧
          (s.withBlock b).aud.queue = b :: h :: rest := fun hlt => by
      have hi : insertBlock b s.aud.queue = b :: h :: rest := by rw [hq, insertBlock_before hlt]
      exact ⟨ha.trans (if_pos (by rw [hi]; rfl)), hi⟩
    refine ⟨fun hlt => ?_, fun hlt hw => ?_, fun hlt h4 h5 => ?_, fun h4 h5 => ?_⟩
    · have hi : insertBlock b s.aud.queue = h :: insertBlock b rest := by rw [hq, insertBlock_after hlt]
      have hne : ¬ (insertBlock b s.aud.queue).head? = some b := by
        rw [hi]
        intro he
        cases he
        exact absurd hlt (Nat.lt_irrefl _)
      rw [ha, if_neg hne, State.withBlock, hi]
    · obtain ⟨he, hqu⟩ := headed hlt
      rw [he, State.examine_waits (n := 0) (q := b :: h :: rest) _ (by rw [hqu]; exact examineQueue_waits hw), ← hp]
      rfl
    · obtain ⟨he, hqu⟩ := headed hlt
      refine ⟨s.aud.frameAt s.osc, ?_, hnext⟩
      rw [he, State.examine_starts (n := 0) (b := b) (q := h :: rest) _
        (by rw [hqu]; exact examineQueue_starts h4 h5)]
      rfl
    · obtain ⟨he, hqu⟩ := headed (by omega)
      rw [he, State.examine_waits (n := 1) (q := h :: rest) _
        (by
          rw [hqu]
          exact (examineQueue_late h4).trans (congrArg (fun r => (r.1, r.2 + 1)) (examineQueue_waits h5))),
        ← hp, ← hq]
      rfl
  · have ha := (State.audioBlock_accepts hb hd (by rw [hq]; decide)).trans (State.acceptBlock_stopped hp)
    have hqu : (s.withBlock b).aud.queue = [b] := by
      show insertBlock b s.aud.queue = [b]
      rw [hq]
      exact rfl
    refine ⟨fun hw => ?_, fun h4 h5 => ⟨s.aud.frameAt s.osc, ?_, hnext⟩, fun h4 => ?_⟩
    · rw [ha, State.examine_waits (n := 0) (q := [b]) _ (by rw [hqu]; exact examineQueue_waits hw)]
      rfl
    · rw [ha, State.examine_starts (n := 0) (b := b) (q := []) _ (by rw [hqu]; exact examineQueue_starts h4 h5), ← hq]
      rfl
    · rw [ha, State.examine_emptied (n := 1) _ (by rw [hqu]; exact examineQueue_late h4)]
      have hem : (s.withBlock b).queueEmptied 1 = s.setAud { s.aud with
          counters := { c with late := satInc c.late } } := by
        rw [State.queueEmptied, ← hq]
        rfl
      rcases hp with hp | hp
      · exact (if_pos hp).trans hem
      · exact (if_neg (by
          show s.aud.play ≠ .idle
          rw [hp]
          decide)).trans ((State.starve_still (s := (s.withBlock b).queueEmptied 1) hp).trans hem)

end Sys2Proof.Machine
end

section
/-! Playout's own events (6.3.2) and the capture port's (6.5). -/

namespace Sys2Proof.Machine

/-! ## Playout's events -/

theorem exec_playoutHeadDue {s : State} {b : AudioBlock} {rest : List AudioBlock} (hp : s.powered = true)
    (hw : s.aud.play = .waiting) (hq : s.aud.queue = b :: rest) :
    exec .playoutHeadDue s = .next ((s.awaitTime b.time).startHead b rest) := by
  have he : exec .playoutHeadDue s = execPlayoutHeadDue s := rfl
  rw [he, execPlayoutHeadDue, State.live_powered hp]
  simp only [hw, hq]

theorem exec_currentBlockEnd {s : State} {c : CurrentBlock} (hp : s.powered = true) (hc : s.aud.current = some c) :
    exec .currentBlockEnd s = .next ((s.advanceTo c.ends).endBlock c.ends) := by
  have he : exec .currentBlockEnd s = execCurrentBlockEnd s := rfl
  rw [he, execCurrentBlockEnd, State.live_powered hp]
  simp only [hc]

/-- The state with the current block released. -/
def State.blockReleased (s : State) : State := s.setAud { s.aud with current := none }

theorem State.endBlock_empty {s : State} (ends : Nat) (h : s.aud.queue = []) :
    s.endBlock ends = s.blockReleased.starve :=
  if_pos (by
    show s.aud.queue.isEmpty = true
    rw [h]
    rfl)

theorem State.endBlock_queued {s : State} (ends : Nat) (h : s.aud.queue ≠ []) :
    s.endBlock ends = s.blockReleased.examine ends :=
  if_neg fun hc => h (List.isEmpty_iff.mp hc)

theorem State.audioStep_still {s : State} (h : s.aud.play ≠ .waiting) : s.audioStep = s := by
  unfold State.audioStep
  split
  · rename_i hw _
    exact absurd hw h
  · rfl

theorem State.audioStep_waiting {s : State} {b : AudioBlock} {rest : List AudioBlock} (h : s.aud.play = .waiting)
    (hq : s.aud.queue = b :: rest) : s.audioStep =
      if b.time.toNat ≤ s.tas.now.toNat then s.examine (s.aud.frameAt s.osc) else s := by
  unfold State.audioStep
  simp only [h, hq]

/-- A queue whose one head is late is emptied, and playout starves. -/
theorem State.examine_starves {s : State} {b : AudioBlock} (first : Nat) (hq : s.aud.queue = [b])
    (hl : b.time.toNat + 2000 < s.tas.now.toNat) (hi : s.aud.play ≠ .idle) (hs : s.aud.play ≠ .starved) :
    OnlyMessages ((s.setAud { s.aud with
      queue := [], play := .starved
      counters := { s.aud.counters with
        late := satInc s.aud.counters.late, underrun := satInc s.aud.counters.underrun } }).withBits bitAudio)
      (s.examine first) := by
  rw [State.examine_emptied (n := 1) first (by
    rw [hq]
    exact examineQueue_late hl), if_neg hi]
  exact State.starve_only (s := s.queueEmptied 1) hs

/-- Settles O36, by the examination of the head that the event leaves. -/
theorem playoutStartsAndEnds : Obligations.PlayoutStartsAndEnds := by
  refine ⟨fun s b rest hp hw hq => ?_, fun s x hp hc hpl => ?_, fun s => ?_⟩
  · intro u
    refine ⟨u.aud.frameAt u.osc, exec_playoutHeadDue hp hw hq, fun hle => ?_, fun p hport hosc =>
      Aud.frameAt_next hport hosc⟩
    exact congrArg (fun t => { s.tas with now := t }) (State.awaitTime_now hle)
  · intro u
    have he := exec_currentBlockEnd hp hc
    have hidle : s.aud.play ≠ .idle := by rw [hpl]; decide
    have hstarved : s.aud.play ≠ .starved := by rw [hpl]; decide
    refine ⟨fun hq => ?_, fun b rest hq => ?_⟩
    · rw [State.endBlock_empty (s := u) x.ends hq] at he
      exact ⟨_, he, State.starve_only (s := u.blockReleased) hstarved⟩
    · rw [State.endBlock_queued (s := u) x.ends (by
        show s.aud.queue ≠ []
        rw [hq]
        exact List.cons_ne_nil _ _)] at he
      have hqu : u.blockReleased.aud.queue = b :: rest := hq
      refine ⟨fun hw => ?_, fun h1 h2 => ?_, fun d more hl hr => ⟨fun hw => ?_, fun h1 h2 => ?_⟩, fun hl hr => ?_⟩
      · rw [he, State.examine_waits (n := 0) (q := b :: rest) _ (by rw [hqu]; exact examineQueue_waits hw), ← hq]
        rfl
      · rw [he, State.examine_starts (n := 0) (b := b) (q := rest) _ (by rw [hqu]; exact examineQueue_starts h1 h2),
          ← hpl]
        rfl
      · rw [he, State.examine_waits (n := 1) (q := rest) _ (by
          rw [hqu, hr]
          exact (examineQueue_late hl).trans (congrArg (fun r => (r.1, r.2 + 1)) (examineQueue_waits hw)))]
        rfl
      · rw [he, State.examine_starts (n := 1) (b := d) (q := more) _ (by
          rw [hqu, hr]
          exact (examineQueue_late hl).trans (congrArg (fun r => (r.1, r.2 + 1)) (examineQueue_starts h1 h2))),
          ← hpl]
        rfl
      · exact ⟨_, he, State.examine_starves (s := u.blockReleased) x.ends (hqu.trans (by rw [hr])) hl hidle hstarved⟩
  · intro c now
    refine ⟨State.audioStep_still, fun b rest hw hq => ⟨fun hlt => ?_, fun h1 h2 => ?_, fun hl hr => ?_⟩⟩
    · rw [State.audioStep_waiting hw hq, if_neg (Nat.not_le.mpr hlt)]
    · refine ⟨s.aud.frameAt s.osc, ?_, fun p hport hosc => Aud.frameAt_next hport hosc⟩
      rw [State.audioStep_waiting hw hq, if_pos h1]
      exact State.examine_starts (n := 0) (b := b) (q := rest) _ (by
        rw [hq]
        exact examineQueue_starts (h1.trans (Nat.le_add_right _ _)) h2)
    · rw [State.audioStep_waiting hw hq, if_pos (by omega)]
      exact State.examine_starves _ (hq.trans (by rw [hr])) hl (by rw [hw]; decide) (by rw [hw]; decide)

/-! ## Capture -/

theorem exec_captureInputFrame {s : State} {start : Nat} (f g : BitVec 16) (hp : s.powered = true)
    (h : s.aud.portStart = some start) : exec (.captureInputFrame f g) s =
      .next (((s.advanceTo (s.aud.lastInput + 15625)).passInput start (s.aud.lastInput + 15625)).inputFrame f g) := by
  have he : exec (.captureInputFrame f g) s = execCaptureInputFrame f g s := rfl
  rw [he, execCaptureInputFrame, State.live_powered hp]
  simp only [h]
  rfl

section inputFrame
variable {s : State} (f g : BitVec 16)

theorem State.inputFrame_off (h : s.aud.capturing = false) : s.inputFrame f g = s := if_neg (by rw [h]; decide)

theorem State.inputFrame_gathers (h : s.aud.capturing = true)
    (hl : (s.gather f g).frames < s.aud.framesPerBlock) :
    s.inputFrame f g = s.setAud { s.aud with partialBlock := some (s.gather f g) } :=
  (if_pos h).trans (if_neg (Nat.not_le.mpr hl))

theorem State.inputFrame_completes (h : s.aud.capturing = true)
    (hl : s.aud.framesPerBlock ≤ (s.gather f g).frames) : s.inputFrame f g = s.completeCapture (s.gather f g) :=
  (if_pos h).trans (if_pos hl)

theorem State.gather_first (h : s.aud.partialBlock = none) :
    s.gather f g = ⟨s.tas.now, 1, if s.aud.channels = 1 then [f] else [f, g]⟩ := by
  unfold State.gather
  rw [h]

theorem State.gather_next {b : PartialBlock} (h : s.aud.partialBlock = some b) :
    s.gather f g = ⟨b.time, b.frames + 1, b.samples ++ if s.aud.channels = 1 then [f] else [f, g]⟩ := by
  unfold State.gather
  rw [h]

end inputFrame

theorem State.queueCapture_room {s : State} (b : CaptureBlock) (h : s.aud.captureQueue.length < 8) :
    OnlyMessages (s.setAud { s.aud with captureQueue := s.aud.captureQueue ++ [b] }) (s.queueCapture b) := by
  have he : s.queueCapture b = (s.setAud { s.aud with captureQueue := s.aud.captureQueue ++ [b] }).place := if_pos h
  rw [he]
  exact State.place_only _

theorem State.queueCapture_full {s : State} (b : CaptureBlock) (h : 8 ≤ s.aud.captureQueue.length) :
    OnlyMessages ((s.setAud { s.aud with
      captureQueue := s.aud.captureQueue.tail ++ [b]
      counters := { s.aud.counters with captureOverflow := satInc s.aud.counters.captureOverflow } }).withBits bitAudio)
      (s.queueCapture b) := by
  have he : s.queueCapture b = ((s.setAud { s.aud with
      captureQueue := s.aud.captureQueue.tail ++ [b]
      counters := { s.aud.counters with
        captureOverflow := satInc s.aud.counters.captureOverflow } }).setSummary bitAudio).place :=
    if_neg (Nat.not_lt.mpr h)
  rw [he]
  exact (State.setSummary_only _ _).trans (State.place_only _)

/-- Settles O37, by whether the frame begins, continues or fills the block being gathered. -/
theorem captureFramesGatherAndComplete : Obligations.CaptureFramesGatherAndComplete := by
  intro s f g start hp hport due u a frame
  have he := exec_captureInputFrame f g hp hport
  let v := u.passInput start due
  have hv : v = u.setAud a := rfl
  refine ⟨fun hc => ?_, fun hc hb hn => ?_, fun b hc hb => ⟨fun hn => ?_, fun hn => ?_⟩⟩
  · rw [State.inputFrame_off (s := v) f g hc] at he
    exact he
  · have hg := State.gather_first (s := v) f g hb
    rw [State.inputFrame_gathers (s := v) f g hc (by rw [hg]; exact hn), hg] at he
    exact he
  · have hg := State.gather_next (s := v) f g hb
    rw [State.inputFrame_gathers (s := v) f g hc (by rw [hg]; exact hn), hg] at he
    exact he
  · intro full done
    have hg := State.gather_next (s := v) f g hb
    rw [State.inputFrame_completes (s := v) f g hc (by rw [hg]; exact hn), hg] at he
    exact ⟨fun hl => ⟨_, he, State.queueCapture_room (s := u.setAud done) full hl⟩,
      fun hl => ⟨_, he, State.queueCapture_full (s := u.setAud done) full hl⟩⟩

end Sys2Proof.Machine
end

section
/-! The power requests (chapter 7) and the emission cap in force. -/

namespace Sys2Proof.Machine

theorem exec_powerGrant (tag : Byte) (ps : List Byte) (s : State) :
    exec (.powerGrant tag ps) s = s.immediate 0x58 tag ps powerGrant := rfl
theorem exec_setThrottleRow (tag : Byte) (ps : List Byte) (s : State) :
    exec (.setThrottleRow tag ps) s = s.immediate 0x59 tag ps setThrottleRow := rfl
theorem exec_setPowerPolicy (tag : Byte) (ps : List Byte) (s : State) :
    exec (.setPowerPolicy tag ps) s = s.immediate 0x5A tag ps setPowerPolicy := rfl
theorem exec_readPowerStatus (tag : Byte) (ps : List Byte) (s : State) :
    exec (.readPowerStatus tag ps) s = s.immediate 0x5B tag ps readPowerStatus := rfl

/-- A clear byte chooses between two values as it is 0 or not. -/
theorem if_flagField {α : Type} (b : Byte) (a c : α) : (if flagField [b] 0 = true then c else a) =
    if b = 0 then a else c := by
  by_cases hb : b = 0
  · rw [if_pos hb, if_neg fun hf => (flagField_one b).mp hf hb]
  · rw [if_neg hb, if_pos ((flagField_one b).mpr hb)]

theorem powerGrant_grants (g : Byte) (s : State) : powerGrant [g] s =
    ⟨.done, pack8 (max 8 (min 80 g.toNat)) ++ pack16 (max 8 (min 80 g.toNat) * 250),
      s.setPmg { s.pmg with contract := max 8 (min 80 g.toNat) * 250 }⟩ := by
  refine (if_neg (by simp)).trans ?_
  rw [field_one, clampNat_eq]
  rfl

section setThrottleRow
variable {ps : List Byte} {s : State}

/-- The row that a Set Throttle Row carries. -/
def rowOf (ps : List Byte) : ThrottleRow :=
  ⟨min (field ps 1 2) 1023, min (field ps 3 2) 255, SampleRate.roundDown (field ps 5 2)⟩

theorem setThrottleRow_named {i : Fin 4} (hl : ps.length = 7) (hi : field ps 0 1 = i.val) : setThrottleRow ps s =
    if rowsOrdered (s.pmg.rows.set i (rowOf ps) i.isLt) = true then
      ⟨.done, pack8 i.val ++ pack16 (rowOf ps).emissionCap ++ pack16 (rowOf ps).minAttenuation ++
        pack16 (rowOf ps).maxRate.hz, (s.setPmg { s.pmg with rows := s.pmg.rows.set i (rowOf ps) i.isLt }).updateCap⟩
    else s.refuse .range := by
  have hn : field ps 0 1 < 4 := hi ▸ i.isLt
  refine (if_neg (not_not.mpr hl)).trans ((dif_pos hn).trans ?_)
  generalize field ps 0 1 = n at hi hn ⊢
  subst hi
  rfl

theorem setThrottleRow_unnamed (hl : ps.length = 7) (hi : 3 < field ps 0 1) : setThrottleRow ps s = s.refuse .range :=
  (if_neg (not_not.mpr hl)).trans (dif_neg (by omega))

end setThrottleRow

theorem setPowerPolicy_sets {ps : List Byte} {s : State} (hl : ps.length = 5) : setPowerPolicy ps s =
    let w := field ps 0 1
    let len := if w < 32 then 16 else if w < 64 then 32 else if w < 128 then 64 else 128
    ⟨.done, pack8 len ++ pack16 (min (field ps 1 2) 1500) ++ pack16 (min (field ps 3 2) 1023),
      (s.setPmg { s.pmg with
        windowLength := len, hysteresis := min (field ps 1 2) 1500
        stillEmission := min (field ps 3 2) 1023
        window := if len = s.pmg.windowLength then s.pmg.window else s.pmg.window.map fun _ => ⟨0, 0⟩
        below := if len = s.pmg.windowLength then s.pmg.below else 0 }).updateCap⟩ := by
  refine (if_neg (not_not.mpr hl)).trans ?_
  simp only [windowLengthOf_eq]
  generalize (if field ps 0 1 < 32 then 16 else _ : Nat) = len
  by_cases hw : len = s.pmg.windowLength
  · simp only [if_pos hw]
  · simp only [if_neg hw]

theorem readPowerStatus_reads (b : Byte) (s : State) : readPowerStatus [b] s =
    ⟨.done, s.powerFields, s.setPmg (if b = 0 then { s.pmg with worst := s.pmg.stage }
      else { s.pmg with worst := s.pmg.stage, overContract := 0, stageChanges := 0, emergencies := 0 })⟩ := by
  refine (if_neg (by simp)).trans ?_
  simp only [if_flagField]
  rfl

theorem State.emissionCap_active {s : State} (h : s.smp.presence = .active) :
    s.emissionCap = min s.pmg.row.emissionCap 1023 := by
  unfold State.emissionCap State.presenceCap
  rw [h]

theorem State.emissionCap_still {s : State} (h : s.smp.presence = .still) :
    s.emissionCap = min s.pmg.row.emissionCap s.pmg.stillEmission := by
  unfold State.emissionCap State.presenceCap
  rw [h]

theorem State.emissionCap_removed {s : State} (h : s.smp.presence = .removed) : s.emissionCap = 0 := by
  unfold State.emissionCap State.presenceCap
  rw [h]
  exact Nat.min_zero _

/-- Settles O38. -/
theorem powerRequestsApplied : Obligations.PowerRequestsApplied := by
  unfold Obligations.PowerRequestsApplied
  intro lowered
  refine ⟨fun s => ?_, fun tag g s h => ?_, fun tag ps i s h hl hi => ?_, fun tag ps s h hl hi => ?_,
    fun tag ps s h hl => ?_, fun tag b s h => ?_⟩
  · exact ⟨State.emissionCap_active, State.emissionCap_still, State.emissionCap_removed⟩
  · intro n
    rw [exec_powerGrant]
    exact State.immediate_answers h (powerGrant_grants g _) rfl
  · intro row rows ordered
    rw [exec_setThrottleRow]
    have ha := setThrottleRow_named (s := s.popRequest) hl hi
    refine ⟨fun ho => ?_, fun ho => ?_⟩
    · exact State.immediate_answers h (ha.trans (if_pos ((rowsOrdered_iff _).mpr ho))) rfl
    · exact State.immediate_refused h (ha.trans (if_neg fun hc => ho ((rowsOrdered_iff _).mp hc)))
  · rw [exec_setThrottleRow]
    exact State.immediate_refused h (setThrottleRow_unnamed (s := s.popRequest) hl hi)
  · intro w len p
    rw [exec_setPowerPolicy]
    exact State.immediate_answers h (setPowerPolicy_sets (s := s.popRequest) hl) rfl
  · rw [exec_readPowerStatus]
    exact State.immediate_answers h (readPowerStatus_reads b _) rfl

end Sys2Proof.Machine
end

section
/-! A rail scan (7.2 to 7.5): what it measures, the stages it judges, and what a change of the stage does. -/

namespace Sys2Proof.Machine

/-! ## The scan's figures -/

/-- The scan added to the window moves the window's own figures and the power stage alone. -/
theorem Pmg.addScan_frame (p : Pmg) : p.addScan = { p with
    window := p.addScan.window, lastAverage := p.addScan.lastAverage, ps := p.addScan.ps
    below := p.addScan.below, overContract := p.addScan.overContract } := by
  unfold Pmg.addScan Pmg.judgePower
  split
  · rfl
  · simp only
    split
    · split
      · rfl
      · split
        · split <;> rfl
        · rfl
    · rfl

section addScan
variable (p : Pmg)

@[simp] theorem Pmg.addScan_rails : p.addScan.rails = p.rails :=
  (congrArg Pmg.rails p.addScan_frame).trans rfl
@[simp] theorem Pmg.addScan_ts : p.addScan.ts = p.ts :=
  (congrArg Pmg.ts p.addScan_frame).trans rfl
@[simp] theorem Pmg.addScan_bs : p.addScan.bs = p.bs :=
  (congrArg Pmg.bs p.addScan_frame).trans rfl
@[simp] theorem Pmg.addScan_scanPower : p.addScan.scanPower = p.scanPower :=
  (congrArg Pmg.scanPower p.addScan_frame).trans rfl
@[simp] theorem Pmg.addScan_contract : p.addScan.contract = p.contract :=
  (congrArg Pmg.contract p.addScan_frame).trans rfl
@[simp] theorem Pmg.addScan_rows : p.addScan.rows = p.rows :=
  (congrArg Pmg.rows p.addScan_frame).trans rfl
@[simp] theorem Pmg.addScan_stage : p.addScan.stage = p.stage :=
  (congrArg Pmg.stage p.addScan_frame).trans rfl
@[simp] theorem Pmg.addScan_worst : p.addScan.worst = p.worst :=
  (congrArg Pmg.worst p.addScan_frame).trans rfl
@[simp] theorem Pmg.addScan_stageChanges : p.addScan.stageChanges = p.stageChanges :=
  (congrArg Pmg.stageChanges p.addScan_frame).trans rfl
@[simp] theorem Pmg.addScan_emergency : p.addScan.emergency = p.emergency :=
  (congrArg Pmg.emergency p.addScan_frame).trans rfl
@[simp] theorem Pmg.addScan_lowScans : p.addScan.lowScans = p.lowScans :=
  (congrArg Pmg.lowScans p.addScan_frame).trans rfl
@[simp] theorem Pmg.addScan_emergencies : p.addScan.emergencies = p.emergencies :=
  (congrArg Pmg.emergencies p.addScan_frame).trans rfl

variable {p : Pmg}

theorem Pmg.addScan_none (h : p.window = none) : p.addScan = p := by
  unfold Pmg.addScan
  rw [h]

theorem Pmg.addScan_open {w : PowerWindow} (h : p.window = some w) (hl : w.scans + 1 < p.windowLength) :
    p.addScan = { p with window := some ⟨w.sum + p.scanPower, w.scans + 1⟩ } := by
  unfold Pmg.addScan
  rw [h]
  exact if_neg (Nat.not_le.mpr hl)

theorem Pmg.addScan_closes {w : PowerWindow} (h : p.window = some w) (hl : p.windowLength ≤ w.scans + 1) :
    p.addScan = Pmg.judgePower { p with
      lastAverage := (w.sum + p.scanPower) / p.windowLength, window := some ⟨0, 0⟩ } := by
  unfold Pmg.addScan
  rw [h]
  exact if_pos hl

theorem Pmg.judgePower_over (h : p.contract < p.lastAverage) : p.judgePower =
    { p with ps := if p.ps = 3 then 3 else p.ps + 1, below := 0, overContract := satInc p.overContract } :=
  if_pos h

theorem Pmg.judgePower_within (h1 : p.lastAverage ≤ p.contract) (h2 : p.contract ≤ p.lastAverage + p.hysteresis) :
    p.judgePower = { p with below := 0 } :=
  (if_neg (Nat.not_lt.mpr h1)).trans (if_neg (Nat.not_lt.mpr h2))

theorem Pmg.judgePower_firstBelow (h : p.lastAverage + p.hysteresis < p.contract) (hb : p.below = 0) :
    p.judgePower = { p with below := 1 } := by
  refine (if_neg (by omega)).trans ((if_pos h).trans ((if_neg (by omega)).trans ?_))
  rw [hb]

theorem Pmg.judgePower_secondBelow (h : p.lastAverage + p.hysteresis < p.contract) (hb : p.below = 1) :
    p.judgePower = { p with ps := if p.ps = 0 then 0 else p.ps - 1, below := 0 } :=
  (if_neg (by omega)).trans ((if_pos h).trans (if_pos (by omega)))

theorem Pmg.judgePower_window : p.judgePower.window = p.window ∧ p.judgePower.lastAverage = p.lastAverage := by
  unfold Pmg.judgePower
  split
  · exact ⟨rfl, rfl⟩
  · split
    · split <;> exact ⟨rfl, rfl⟩
    · exact ⟨rfl, rfl⟩

end addScan

/-! ## The stages (R120, R121) -/

theorem tempStage_zero (code : Nat) : tempStage 0 code = if code < 1352 then 0 else if code < 1472 then 2 else 3 := by
  unfold tempStage
  rw [if_pos rfl]
  split_ifs <;> first | rfl | omega

theorem tempStage_two (code : Nat) : tempStage 2 code = if code < 1312 then 0 else if code < 1472 then 2 else 3 := by
  unfold tempStage
  rw [if_neg (by decide), if_neg (by decide)]
  split_ifs <;> first | rfl | omega

theorem tempStage_three (code : Nat) : tempStage 3 code = if code < 1312 then 0 else if code < 1432 then 2 else 3 := by
  unfold tempStage
  rw [if_neg (by decide), if_pos rfl]
  split_ifs <;> first | rfl | omega

theorem brownOutStage_zero (vin : Nat) : brownOutStage 0 vin = if vin < 1050 then 3 else 0 := if_pos rfl

theorem brownOutStage_three (vin : Nat) : brownOutStage 3 vin = if vin < 1080 then 3 else 0 := by
  unfold brownOutStage
  rw [if_neg (by decide)]
  split_ifs <;> first | rfl | omega

/-! ## The Power Manager through a scan -/

/-- Steps 1 to 3, the next scan due. -/
def Pmg.scanned (p : Pmg) (codes : RailCodes) : Pmg := { p.measure codes with scanDue := p.scanDue + us 1000 }

/-- The stage in force worked out again, a change counted and kept in the worst stage. -/
def Pmg.restaged (p : Pmg) : Pmg :=
  { p with
    stage := p.greatest
    worst := if p.greatest = p.stage then p.worst else max p.worst p.greatest
    stageChanges := if p.greatest = p.stage then p.stageChanges else satInc p.stageChanges }

/-- The scan begins the emergency. -/
def Pmg.begins (p : Pmg) : Prop := p.emergency = false ∧ p.rails.vin.toNat < 950 ∧ 3 ≤ p.lowScans

/-- The emergency judged. -/
def Pmg.watched (p : Pmg) : Pmg :=
  if p.emergency then
    { p with
      emergency := decide (p.rails.vin.toNat < 1080)
      lowScans := if p.rails.vin.toNat < 1080 then p.lowScans else 0 }
  else if p.rails.vin.toNat < 950 then
    if p.lowScans < 3 then { p with lowScans := p.lowScans + 1 }
    else { p with emergency := true, lowScans := 4, emergencies := satInc p.emergencies }
  else { p with lowScans := 0 }

theorem Pmg.restaged_same {p : Pmg} (h : p.greatest = p.stage) : p.restaged = p := by
  unfold Pmg.restaged
  rw [if_pos h, if_pos h, h]

theorem Pmg.restaged_changed {p : Pmg} (h : p.greatest ≠ p.stage) : p.restaged = { p with
    stage := p.greatest, worst := max p.worst p.greatest, stageChanges := satInc p.stageChanges } := by
  unfold Pmg.restaged
  rw [if_neg h, if_neg h]

section watched
variable {p : Pmg}

theorem Pmg.watched_ends (he : p.emergency = true) (hv : 1080 ≤ p.rails.vin.toNat) :
    p.watched = { p with emergency := false, lowScans := 0 } := by
  unfold Pmg.watched
  rw [if_pos he, if_neg (Nat.not_lt.mpr hv), decide_eq_false (Nat.not_lt.mpr hv)]

theorem Pmg.watched_goesOn (he : p.emergency = true) (hv : p.rails.vin.toNat < 1080) : p.watched = p := by
  unfold Pmg.watched
  rw [if_pos he, if_pos hv, decide_eq_true hv, ← he]

theorem Pmg.watched_clear (he : p.emergency = false) (hv : 950 ≤ p.rails.vin.toNat) :
    p.watched = { p with lowScans := 0 } :=
  (if_neg (by rw [he]; decide)).trans (if_neg (Nat.not_lt.mpr hv))

theorem Pmg.watched_low (he : p.emergency = false) (hv : p.rails.vin.toNat < 950) (hl : p.lowScans < 3) :
    p.watched = { p with lowScans := p.lowScans + 1 } :=
  (if_neg (by rw [he]; decide)).trans ((if_pos hv).trans (if_pos hl))

theorem Pmg.watched_begins (h : p.begins) :
    p.watched = { p with emergency := true, lowScans := 4, emergencies := satInc p.emergencies } := by
  obtain ⟨he, hv, hl⟩ := h
  exact (if_neg (by rw [he]; decide)).trans ((if_pos hv).trans (if_neg (Nat.not_lt.mpr hl)))

/-- The emergency judged moves its own three figures alone. -/
theorem Pmg.watched_frame (p : Pmg) : p.watched = { p with
    emergency := p.watched.emergency, lowScans := p.watched.lowScans, emergencies := p.watched.emergencies } := by
  unfold Pmg.watched
  split
  · rfl
  · split
    · split <;> rfl
    · rfl

theorem Pmg.watched_emergencies (h : ¬ p.begins) : p.watched.emergencies = p.emergencies := by
  unfold Pmg.watched
  split
  · rfl
  · split
    · split
      · rfl
      · rename_i he hv hl
        exact absurd ⟨Bool.not_eq_true _ ▸ he, hv, Nat.not_lt.mp hl⟩ h
    · rfl

end watched

/-! ## Power reports -/

theorem OnlyMessages.powerReportFields {s t : State} (h : OnlyMessages s t) (cause : Nat) :
    t.powerReportFields cause = s.powerReportFields cause := by
  unfold State.powerReportFields
  rw [h.pmg, h.emissionCap, h.tas]

theorem State.powerReport_only (s : State) (cause : Nat) : OnlyMessages s (s.powerReport cause) :=
  State.reportIf_only _ _ _ _

theorem State.powerReport_serial (s : State) (cause : Nat) : SameSerial s (s.powerReport cause) :=
  State.reportIf_serial _ _ _ _

theorem State.powerReport_recent {s : State} {k : Nat} {r : Report} (h : s.recent k r) (hk : k < 8) (cause : Nat) :
    (s.powerReport cause).recent (k + 1) r := State.reportIf_recent h hk _ _ _

theorem State.powerReport_new {s : State} (cause : Nat) (hon : s.mge.enables.power = true) :
    (s.powerReport cause).recent 1 ⟨.power, s.powerReportFields cause⟩ := by
  unfold State.powerReport
  rw [hon]
  exact State.handReport_new _ _ _

/-! ## The stage in force, as the state takes it (R123) -/

/-- The state with the stage in force worked out again; a change lowers the emission and sets POWER. -/
def State.restaged (s : State) : State :=
  if s.pmg.greatest = s.pmg.stage then s else (s.setPmg s.pmg.restaged).updateCap.withBits bitPower

theorem State.judgeStage_same {s : State} (h : s.pmg.greatest = s.pmg.stage) : s.judgeStage = s := if_pos h

theorem State.judgeStage_changed {s : State} (h : s.pmg.greatest ≠ s.pmg.stage) : s.judgeStage =
    ((s.setPmg s.pmg.restaged).updateCap.setSummary bitPower).powerReport 1 := by
  rw [Pmg.restaged_changed h]
  exact if_neg h

theorem State.judgeStage_only (s : State) : OnlyMessages s.restaged s.judgeStage := by
  unfold State.restaged
  split
  · rw [State.judgeStage_same ‹_›]
    exact .refl _
  · rw [State.judgeStage_changed ‹_›]
    exact (State.setSummary_only _ _).trans (State.powerReport_only _ _)

theorem State.judgeStage_serial (s : State) : SameSerial s s.judgeStage := by
  by_cases h : s.pmg.greatest = s.pmg.stage
  · rw [State.judgeStage_same h]
    rfl
  · rw [State.judgeStage_changed h]
    exact (State.powerReport_serial _ _).trans ((State.setSummary_serial _ _).trans rfl)

theorem State.restaged_pmg (s : State) : s.restaged.pmg = s.pmg.restaged := by
  unfold State.restaged
  split
  · rw [Pmg.restaged_same ‹_›]
  · rfl

/-- A change of the stage is reported, with the figures after it. -/
theorem State.judgeStage_reported {s : State} (h : s.pmg.greatest ≠ s.pmg.stage) (hon : s.mge.enables.power = true) :
    s.judgeStage.recent 1 ⟨.power, s.judgeStage.powerReportFields 1⟩ := by
  have hset := State.setSummary_only (s.setPmg s.pmg.restaged).updateCap bitPower
  have hne : ((s.setPmg s.pmg.restaged).updateCap.setSummary bitPower).mge.enables.power = true := by
    rw [hset.mge]
    exact hon
  rw [State.judgeStage_changed h, (State.powerReport_only _ _).powerReportFields]
  exact State.powerReport_new 1 hne

/-- What a change of the stage leaves as it was. -/
structure PowerFrame (s t : State) : Prop where
  osc : t.osc = s.osc
  tas : t.tas = s.tas
  smp : t.smp = s.smp
  ori : t.ori = s.ori
  fri : t.fri = s.fri
  cfl : t.cfl = s.cfl
  cst : t.cst = s.cst

theorem PowerFrame.trans {s t u : State} (h : PowerFrame s t) (k : PowerFrame t u) : PowerFrame s u :=
  ⟨k.osc.trans h.osc, k.tas.trans h.tas, k.smp.trans h.smp, k.ori.trans h.ori, k.fri.trans h.fri, k.cfl.trans h.cfl,
    k.cst.trans h.cst⟩

theorem OnlyMessages.powerFrame {s t : State} (h : OnlyMessages s t) : PowerFrame s t :=
  ⟨h.osc, h.tas, h.smp, h.ori, h.fri, h.cfl, h.cst⟩

theorem State.restaged_powerFrame (s : State) : PowerFrame s s.restaged := by
  unfold State.restaged
  split <;> exact ⟨rfl, rfl, rfl, rfl, rfl, rfl, rfl⟩

/-- A change of the stage lowers the applied emissions, and leaves the rest of the Scan-Out. -/
theorem State.restaged_panel (s : State) (q : Panel) : s.restaged.panel q = { s.panel q with
    applied := if s.pmg.greatest = s.pmg.stage then (s.panel q).applied
      else min (s.panel q).applied s.restaged.emissionCap } := by
  unfold State.restaged
  by_cases h : s.pmg.greatest = s.pmg.stage
  · rw [if_pos h, if_pos h]
  · rw [if_neg h, if_neg h]
    cases q <;> rfl

theorem State.restaged_sco (s : State) : s.restaged.sco.refreshDue = s.sco.refreshDue ∧
    s.restaged.sco.refreshing = s.sco.refreshing := by
  unfold State.restaged
  split <;> exact ⟨rfl, rfl⟩

theorem State.restaged_inProgress (s : State) : s.restaged.mge.inProgress = s.mge.inProgress ∧
    s.restaged.mge.enables = s.mge.enables := by
  unfold State.restaged
  split <;> exact ⟨rfl, rfl⟩

theorem and_or_self (a b : BitVec 8) : (a ||| b) &&& b = b := by
  rw [BitVec.and_comm]
  ext i
  simp
  exact fun h => .inr h

theorem State.restaged_power {s : State} (h : s.pmg.greatest ≠ s.pmg.stage) :
    s.restaged.mge.summary &&& bitPower = bitPower := by
  unfold State.restaged
  rw [if_neg h]
  exact and_or_self _ _

end Sys2Proof.Machine
end

section
/-! The emergency (7.4.1), and RAIL_SCAN_END as a whole. -/

namespace Sys2Proof.Machine

/-! ## Requests answered at the end of what they wait for -/

theorem State.formReply_serial (s : State) (kind tag : Byte) (st : Status) (f : List Byte) :
    (s.formReply kind tag st f).mge.nextSerial = s.mge.nextSerial + 1 := State.place_serial _

theorem State.formReply_recent {s : State} {k : Nat} {r : Report} (h : s.recent k r) (kind tag : Byte) (st : Status)
    (f : List Byte) : (s.formReply kind tag st f).recent k r := by
  refine State.place_recent ?_
  exact h

/-- A reply on its way stays so while messages move. -/
theorem OnlyMessages.outgoing {s t : State} (h : OnlyMessages s t) {r : Reply} (hr : r ∈ s.outgoing) :
    r ∈ t.outgoing :=
  mem_outgoing.mpr (h.kept _ (mem_outgoing.mp hr) nofun)

theorem State.setSummary_outgoing {s : State} {r : Reply} (h : r ∈ s.outgoing) (bits : BitVec 8) :
    r ∈ (s.setSummary bits).outgoing :=
  (State.setSummary_only s bits).outgoing h

section finish
variable {holds : InProgress → Bool} {st : Status} {fields : InProgress → State → List Byte}

/-- The replies formed one after the other. -/
def State.formReplies (s : State) (st : Status) (fields : InProgress → State → List Byte) (l : List InProgress) :
    State :=
  l.foldl (fun t p => t.formReply p.kind p.tag st (fields p t)) s

theorem State.formReplies_serial (l : List InProgress) (s : State) :
    (s.formReplies st fields l).mge.nextSerial = s.mge.nextSerial + l.length := by
  induction l generalizing s with
  | nil => rfl
  | cons p l ih =>
    refine (ih _).trans ?_
    rw [State.formReply_serial, List.length_cons]
    omega

theorem State.formReplies_recent {k : Nat} {r : Report} (l : List InProgress) {s : State} (h : s.recent k r) :
    (s.formReplies st fields l).recent k r := by
  induction l generalizing s with
  | nil => exact h
  | cons p l ih => exact ih (State.formReply_recent h _ _ _ _)

theorem State.formReplies_only (l : List InProgress) (s : State) : OnlyMessages s (s.formReplies st fields l) := by
  induction l generalizing s with
  | nil => exact .refl s
  | cons p l ih => exact (s.formReply_only _ _ _ _).trans (ih _)

/-- Each request is answered; its fields do not hang on the replies formed before it. -/
theorem State.formReplies_answers {f : InProgress → List Byte} {s : State}
    (hf : ∀ e t, OnlyMessages s t → fields e t = f e) :
    ∀ (l : List InProgress) {t : State}, OnlyMessages s t → ∀ e ∈ l, ∃ n, s.mge.nextSerial ≤ n ∧
      (⟨n, e.kind, e.tag, st, f e⟩ : Reply) ∈ (t.formReplies st fields l).outgoing := by
  intro l
  induction l with
  | nil => exact fun _ e he => by cases he
  | cons p l ih =>
    intro t ht e he
    have hstep := t.formReply_only p.kind p.tag st (fields p t)
    rcases List.mem_cons.mp he with rfl | he
    · refine ⟨t.mge.nextSerial, ht.serials, (State.formReplies_only l _).outgoing ?_⟩
      rw [← hf e t ht]
      exact t.formReply_answered e.kind e.tag st (fields e t)
    · exact ih (ht.trans hstep) e he

end finish

/-! ## Panels forced down -/

theorem PanelCtl.force_state (c : PanelCtl) (n : Nat) : (c.force n).state ≠ .showing := by
  unfold PanelCtl.force
  split
  · exact fun h => by cases h
  · rename_i h
    exact fun hs => h (.inr (.inr hs))

theorem PanelCtl.force_up {c : PanelCtl} (n : Nat) (h : c.state = .rampUp ∨ c.state = .standby ∨ c.state = .showing) :
    c.force n = { c.leave .rampDown with
      rampEnd := n, longOp := .none
      counters := { c.counters with emergency := satInc c.counters.emergency } } := if_pos h

theorem PanelCtl.force_down {c : PanelCtl} (n : Nat) (h : c.state = .off ∨ c.state = .rampDown) : c.force n = c :=
  if_neg (by rcases h with h | h <;> rw [h] <;> decide)

/-- The Scan-Out with its panels forced down and the refresh timer stopped. -/
def State.forced (s : State) : State :=
  s.setSco { s.sco with
    panels := ⟨(s.panel .left).force (s.osc + ms 5), (s.panel .right).force (s.osc + ms 5)⟩
    refreshDue := none, refreshing := none }

theorem State.forced_panel (s : State) (q : Panel) : s.forced.panel q = (s.panel q).force (s.osc + ms 5) := by
  cases q <;> rfl

/-- The panels forced, before the refresh timer is settled. -/
def State.panelsForced (s : State) : State :=
  s.updatePanels [.left, .right] fun c => c.force (s.osc + ms 5)

theorem State.panelsForced_eq (s : State) : s.panelsForced = s.setSco { s.sco with
    panels := ⟨(s.panel .left).force (s.osc + ms 5), (s.panel .right).force (s.osc + ms 5)⟩ } := by
  unfold State.panelsForced
  rw [State.updatePanels_eq (by decide)]
  rfl

theorem State.panelsForced_state (s : State) (q : Panel) : (s.panelsForced.panel q).state ≠ .showing := by
  rw [State.panelsForced_eq]
  cases q <;> exact PanelCtl.force_state _ _

/-- With no panel left SHOWING the timer stops, and a refresh start still to be taken is done. -/
theorem State.panelsForced_settled (s : State) : OnlyMessages s.forced s.panelsForced.settleRefresh := by
  have ht : s.panelsForced.timerSettled.setSco
      { s.panelsForced.timerSettled.sco with refreshing := none } = s.forced := by
    have hno : ¬ (s.panelsForced.sco.panels.left.state = .showing ∨ s.panelsForced.sco.panels.right.state = .showing) :=
      fun h => h.elim (s.panelsForced_state .left) (s.panelsForced_state .right)
    rw [State.timerSettled_eq, if_neg hno, State.panelsForced_eq]
    rfl
  cases hr : s.panelsForced.sco.refreshing with
  | none =>
    rw [State.settleRefresh_quiet fun r h => by rw [hr] at h; cases h]
    have hsame : s.panelsForced.timerSettled.setSco
        { s.panelsForced.timerSettled.sco with refreshing := none } = s.panelsForced.timerSettled := by
      rw [← hr]
      rfl
    rw [← ht, hsame]
    exact .refl _
  | some r =>
    rw [State.settleRefresh_done hr (s.panelsForced_state _), ← ht]
    exact (State.finishRefresh_out (s := s.panelsForced.timerSettled) hr (s.panelsForced_state _)).1

theorem State.panelsForced_settled_recent {s : State} {k : Nat} {r : Report} (h : s.recent k r) (hk : k < 8) :
    s.panelsForced.settleRefresh.recent (k + 1) r := by
  have h0 : s.panelsForced.timerSettled.recent k r := by
    rw [State.panelsForced_eq]
    exact h
  cases hr : s.panelsForced.sco.refreshing with
  | none =>
    rw [State.settleRefresh_quiet fun r h => by rw [hr] at h; cases h]
    exact h0.mono (Nat.le_succ k)
  | some x =>
    have hout : (s.panelsForced.timerSettled.setSco
        { s.panelsForced.timerSettled.sco with refreshing := none }).refreshPanel x.start x.panel =
        (s.panelsForced.timerSettled.setSco
          { s.panelsForced.timerSettled.sco with refreshing := none }, List.replicate 10 0) :=
      State.refreshPanel_out (s.panelsForced_state _)
    rw [State.settleRefresh_done hr (s.panelsForced_state _),
      State.finishRefresh_some (s := s.panelsForced.timerSettled) hr, hout]
    exact State.reportIf_recent (s := s.panelsForced.timerSettled.setSco
      { s.panelsForced.timerSettled.sco with refreshing := none }) h0 hk _ _ _

/-- A Panels On that ramps a panel which the emergency forces down. -/
def State.endedBy (s : State) (e : InProgress) : Prop :=
  e.kind = 0x40 ∧ (((s.panel .left).state = .rampUp ∧ e.ramps .left = true) ∨
    ((s.panel .right).state = .rampUp ∧ e.ramps .right = true))

/-- Whether it is one, as the model works it out. -/
def State.ends (s : State) (e : InProgress) : Bool := decide (e.kind = 0x40) && s.rampingUp.any fun p => e.ramps p

theorem State.ends_iff (s : State) (e : InProgress) : s.ends e = true ↔ s.endedBy e := by
  unfold State.ends State.rampingUp State.endedBy
  rw [Bool.and_eq_true, decide_eq_true_eq, List.any_eq_true]
  refine and_congr_right fun _ => ⟨?_, ?_⟩
  · rintro ⟨p, hp, he⟩
    have hs := of_decide_eq_true (List.mem_filter.mp hp).2
    cases p
    · exact .inl ⟨hs, he⟩
    · exact .inr ⟨hs, he⟩
  · rintro (⟨hs, he⟩ | ⟨hs, he⟩)
    · exact ⟨.left, List.mem_filter.mpr ⟨by simp, decide_eq_true hs⟩, he⟩
    · exact ⟨.right, List.mem_filter.mpr ⟨by simp, decide_eq_true hs⟩, he⟩

/-- The requests in progress that the emergency answers. -/
def State.endedList (s : State) : List InProgress :=
  s.mge.inProgress.filter s.ends

/-- The state with the panels forced down and the requests answered gone. -/
def State.forcedOut (s : State) : State :=
  s.forced.setMge { s.mge with inProgress := s.mge.inProgress.filter fun e => !s.ends e }

/-- The panels forced down and the requests answered gone, their replies still to be formed. -/
def State.settledOut (s : State) : State :=
  s.panelsForced.settleRefresh.setMge { s.panelsForced.settleRefresh.mge with inProgress := s.forcedOut.mge.inProgress }

theorem State.settledOut_only (s : State) : OnlyMessages s.forcedOut s.settledOut :=
  s.panelsForced_settled.setInProgress _

theorem State.forcePanels_eq (s : State) :
    s.forcePanels = s.settledOut.formReplies .state panelEndFields s.endedList := by
  have hip := s.panelsForced_settled.inProgress
  unfold State.forcePanels State.finish State.settledOut State.formReplies State.endedList
  have hu : (s.updatePanels [.left, .right] fun c => c.force (s.osc + ms 5)) = s.panelsForced := rfl
  simp only [hu, hip]
  rfl

theorem State.forcePanels_only (s : State) : OnlyMessages s.forcedOut s.forcePanels := by
  rw [State.forcePanels_eq]
  exact s.settledOut_only.trans (State.formReplies_only _ _)

theorem State.settledOut_serial (s : State) : SameSerial s s.settledOut := by
  have h0 : SameSerial s s.panelsForced := by
    rw [State.panelsForced_eq]
    rfl
  exact (Delivers.settleRefresh s.panelsForced).serial.trans h0

theorem State.forcePanels_serial (s : State) :
    s.forcePanels.mge.nextSerial = s.mge.nextSerial + s.endedList.length := by
  have h0 := s.settledOut_serial
  unfold SameSerial at h0
  rw [State.forcePanels_eq, State.formReplies_serial, h0]

theorem State.forcePanels_recent {s : State} {k : Nat} {r : Report} (h : s.recent k r) (hk : k < 8) :
    s.forcePanels.recent (k + 1) r := by
  rw [State.forcePanels_eq]
  refine State.formReplies_recent _ ?_
  exact State.panelsForced_settled_recent h hk

/-- Each request so ended is answered, with the panel states that the emergency has made. -/
theorem State.forcePanels_answers {s : State} {e : InProgress} (he : e ∈ s.endedList) :
    ∃ n, s.mge.nextSerial ≤ n ∧
      (⟨n, e.kind, e.tag, .state, s.forced.panelFields e.panelSet⟩ : Reply) ∈ s.forcePanels.outgoing := by
  have hf : ∀ (e : InProgress) t, OnlyMessages s.settledOut t → panelEndFields e t = s.forced.panelFields e.panelSet :=
    fun e t ht => by
    have hp := s.settledOut_only.trans ht
    unfold panelEndFields State.panelFields
    rw [hp.panel, hp.panel]
    rfl
  obtain ⟨n, hn, hr⟩ := State.formReplies_answers (st := .state) hf s.endedList (.refl _) e he
  rw [State.forcePanels_eq]
  exact ⟨n, Nat.le_of_eq s.settledOut_serial.symm |>.trans hn, hr⟩

/-! ## The emergency judged (R122) -/

/-- The emergency begun, its figures counted, before the panels are forced. -/
def State.alarmed (s : State) : State := s.setPmg s.pmg.watched

theorem State.forcedOut_inProgress (s : State) (bits : BitVec 8) :
    (s.alarmed.forcedOut.withBits bits).mge.inProgress = s.mge.inProgress.filter fun e => !s.alarmed.ends e := rfl

theorem State.endedList_alarmed (s : State) : s.endedList = s.mge.inProgress.filter s.alarmed.ends := rfl

section begins
variable {s : State}

theorem State.judgeEmergency_begins (h : s.pmg.begins) :
    s.judgeEmergency = (s.alarmed.forcePanels.setSummary bitPower).powerReport 2 := by
  have hw := Pmg.watched_begins h
  obtain ⟨he, hv, hl⟩ := h
  unfold State.alarmed
  rw [hw]
  exact (if_neg (by rw [he]; decide)).trans ((if_pos hv).trans (if_pos (by omega)))

theorem State.begins_only (h : s.pmg.begins) :
    OnlyMessages (s.alarmed.forcedOut.withBits bitPower) s.judgeEmergency := by
  rw [State.judgeEmergency_begins h]
  exact (s.alarmed.forcePanels_only.withBits bitPower).trans
    ((State.setSummary_only _ _).trans (State.powerReport_only _ _))

theorem State.begins_serial (h : s.pmg.begins) :
    s.judgeEmergency.mge.nextSerial = s.mge.nextSerial + s.endedList.length := by
  rw [State.judgeEmergency_begins h]
  exact (State.powerReport_serial _ _).trans ((State.setSummary_serial _ _).trans s.alarmed.forcePanels_serial)

theorem State.begins_recent {k : Nat} {r : Report} (h : s.pmg.begins) (hr : s.recent k r) (hk : k + 2 < 8) :
    s.judgeEmergency.recent (k + 3) r := by
  rw [State.judgeEmergency_begins h]
  have h1 : s.alarmed.recent k r := hr
  exact State.powerReport_recent
    (State.setSummary_recent (State.forcePanels_recent h1 (by omega)) (by omega) bitPower) hk 2

theorem State.begins_answers {e : InProgress} (h : s.pmg.begins) (he : e ∈ s.endedList) :
    ∃ n, s.mge.nextSerial ≤ n ∧
      (⟨n, e.kind, e.tag, .state, s.alarmed.forced.panelFields e.panelSet⟩ : Reply) ∈ s.judgeEmergency.outgoing := by
  obtain ⟨n, hn, hr⟩ := State.forcePanels_answers (s := s.alarmed) he
  refine ⟨n, hn, ?_⟩
  rw [State.judgeEmergency_begins h]
  exact (State.powerReport_only _ _).outgoing (State.setSummary_outgoing hr bitPower)

theorem State.begins_panel (h : s.pmg.begins) (q : Panel) : s.judgeEmergency.panel q = s.alarmed.forced.panel q :=
  (State.begins_only h).panel q

theorem State.begins_refreshDue (h : s.pmg.begins) : s.judgeEmergency.sco.refreshDue = none :=
  congrArg Sco.refreshDue (State.begins_only h).sco

theorem State.begins_power (h : s.pmg.begins) : s.judgeEmergency.mge.summary &&& bitPower = bitPower := by
  rw [(State.begins_only h).mge]
  exact and_or_self _ _

theorem State.begins_panelFields (h : s.pmg.begins) (set : Byte) :
    s.judgeEmergency.panelFields set = s.alarmed.forced.panelFields set := by
  unfold State.panelFields
  rw [State.begins_panel h, State.begins_panel h]

end begins

end Sys2Proof.Machine
end

section
/-! RAIL_SCAN_END (7.2): the judgements put together. -/

namespace Sys2Proof.Machine

/-! ## Without a beginning emergency -/

@[simp] theorem State.alarmed_sco (s : State) : s.alarmed.sco = s.sco := rfl
@[simp] theorem State.alarmed_mge (s : State) : s.alarmed.mge = s.mge := rfl
@[simp] theorem State.alarmed_panel (s : State) (q : Panel) : s.alarmed.panel q = s.panel q := rfl

section quiet
variable {s : State}

theorem State.judgeEmergency_ends (he : s.pmg.emergency = true) (hv : 1080 ≤ s.pmg.rails.vin.toNat) :
    s.judgeEmergency = s.alarmed.powerReport 3 := by
  unfold State.alarmed
  rw [Pmg.watched_ends he hv]
  exact (if_pos he).trans (if_pos hv)

theorem State.judgeEmergency_goesOn (he : s.pmg.emergency = true) (hv : s.pmg.rails.vin.toNat < 1080) :
    s.judgeEmergency = s.alarmed := by
  unfold State.alarmed
  rw [Pmg.watched_goesOn he hv]
  exact (if_pos he).trans (if_neg (Nat.not_le.mpr hv))

theorem State.judgeEmergency_none (he : s.pmg.emergency = false) (hb : ¬ s.pmg.begins) :
    s.judgeEmergency = s.alarmed := by
  have hne : ¬ s.pmg.emergency = true := by rw [he]; decide
  unfold State.alarmed
  by_cases hv : s.pmg.rails.vin.toNat < 950
  · have hl : s.pmg.lowScans < 3 := Nat.lt_of_not_le fun hc => hb ⟨he, hv, hc⟩
    rw [Pmg.watched_low he hv hl]
    exact (if_neg hne).trans ((if_pos hv).trans (if_neg (by omega)))
  · rw [Pmg.watched_clear he (Nat.not_lt.mp hv)]
    exact (if_neg hne).trans (if_neg hv)

/-- An emergency that does not begin now moves its figures, and hands over at most the report of its end. -/
theorem State.judgeEmergency_quiet (hb : ¬ s.pmg.begins) :
    s.judgeEmergency = s.alarmed ∨ s.judgeEmergency = s.alarmed.powerReport 3 := by
  cases he : s.pmg.emergency with
  | false => exact .inl (State.judgeEmergency_none he hb)
  | true =>
    by_cases hv : s.pmg.rails.vin.toNat < 1080
    · exact .inl (State.judgeEmergency_goesOn he hv)
    · exact .inr (State.judgeEmergency_ends he (Nat.not_lt.mp hv))

theorem State.quiet_only (hb : ¬ s.pmg.begins) : OnlyMessages s.alarmed s.judgeEmergency := by
  rcases State.judgeEmergency_quiet hb with h | h <;> rw [h]
  · exact .refl _
  · exact State.powerReport_only _ _

theorem State.quiet_serial (hb : ¬ s.pmg.begins) : SameSerial s s.judgeEmergency := by
  rcases State.judgeEmergency_quiet hb with h | h <;> rw [h]
  · rfl
  · exact (State.powerReport_serial _ _).trans rfl

theorem State.quiet_recent {k : Nat} {r : Report} (hb : ¬ s.pmg.begins) (hr : s.recent k r) (hk : k < 8) :
    s.judgeEmergency.recent (k + 1) r := by
  have h1 : s.alarmed.recent k r := hr
  rcases State.judgeEmergency_quiet hb with h | h <;> rw [h]
  · exact h1.mono (Nat.le_succ k)
  · exact State.powerReport_recent h1 hk 3

end quiet

/-! ## In every case -/

section judgeEmergency
variable (s : State)

theorem State.judgeEmergency_pmg : s.judgeEmergency.pmg = s.pmg.watched := by
  by_cases hb : s.pmg.begins
  · exact (State.begins_only hb).pmg
  · exact (State.quiet_only hb).pmg

theorem State.judgeEmergency_frame : PowerFrame s s.judgeEmergency := by
  by_cases hb : s.pmg.begins
  · refine .trans (t := s.alarmed.forcedOut.withBits bitPower) ?_ (State.begins_only hb).powerFrame
    exact ⟨rfl, rfl, rfl, rfl, rfl, rfl, rfl⟩
  · refine .trans (t := s.alarmed) ?_ (State.quiet_only hb).powerFrame
    exact ⟨rfl, rfl, rfl, rfl, rfl, rfl, rfl⟩

variable {s}

theorem State.emissionCap_congr {t : State} (hs : t.smp = s.smp) (hp : t.pmg = s.pmg) :
    t.emissionCap = s.emissionCap := by
  unfold State.emissionCap State.presenceCap
  rw [hs, hp]

theorem State.judgeEmergency_cap : s.judgeEmergency.emissionCap = s.emissionCap := by
  have h := State.emissionCap_congr (s := s.alarmed) (s.judgeEmergency_frame.smp) s.judgeEmergency_pmg
  rw [h]
  unfold State.alarmed
  rw [Pmg.watched_frame]
  rfl

theorem State.judgeEmergency_recent {k : Nat} {r : Report} (hr : s.recent k r) (hk : k + 2 < 8) :
    s.judgeEmergency.recent (k + 3) r := by
  by_cases hb : s.pmg.begins
  · exact State.begins_recent hb hr hk
  · exact (State.quiet_recent hb hr (by omega)).mono (by omega)

/-- The summary keeps POWER where it is set. -/
theorem State.judgeEmergency_power (h : s.mge.summary &&& bitPower = bitPower) :
    s.judgeEmergency.mge.summary &&& bitPower = bitPower := by
  by_cases hb : s.pmg.begins
  · rw [(State.begins_only hb).mge]
    exact and_or_self _ _
  · rw [(State.quiet_only hb).mge]
    exact h

/-- A figure that the emergency does not move. -/
theorem Pmg.watched_same {α : Type} (f : Pmg → α)
    (hf : ∀ (p : Pmg) a b c, f { p with emergency := a, lowScans := b, emergencies := c } = f p) (p : Pmg) :
    f p.watched = f p := by
  rw [p.watched_frame]
  exact hf _ _ _ _

end judgeEmergency

/-! ## The scan -/

theorem exec_railScanEnd {s : State} (codes : RailCodes) (hp : s.powered = true) :
    exec (.railScanEnd codes) s = .next ((s.advanceTo s.pmg.scanDue).scan codes) := by
  have he : exec (.railScanEnd codes) s = execRailScanEnd codes s := rfl
  rw [he, execRailScanEnd, State.live_powered hp]

/-- The state with the scan measured. -/
def State.measured (s : State) (codes : RailCodes) : State := s.setPmg (s.pmg.scanned codes)

theorem State.scan_eq (s : State) (codes : RailCodes) :
    s.scan codes = (s.measured codes).judgeStage.judgeEmergency := rfl

section scan
variable (s : State) (codes : RailCodes)

/-- The Power Manager after a scan. -/
def Pmg.judged (p : Pmg) (codes : RailCodes) : Pmg := (p.scanned codes).restaged.watched

theorem State.measured_judgeStage_pmg : (s.measured codes).judgeStage.pmg = (s.pmg.scanned codes).restaged :=
  (State.judgeStage_only _).pmg.trans (State.restaged_pmg _)

theorem State.scan_pmg : (s.scan codes).pmg = s.pmg.judged codes := by
  rw [State.scan_eq, State.judgeEmergency_pmg, State.measured_judgeStage_pmg]
  rfl

theorem State.measured_frame : PowerFrame s (s.measured codes).judgeStage :=
  .trans (t := s.measured codes) ⟨rfl, rfl, rfl, rfl, rfl, rfl, rfl⟩
    ((State.restaged_powerFrame _).trans (State.judgeStage_only _).powerFrame)

theorem State.scan_frame : PowerFrame s (s.scan codes) :=
  (s.measured_frame codes).trans (State.judgeEmergency_frame _)

end scan

/-- The figures of the Power Manager before the window is judged. -/
def Pmg.sampled (p : Pmg) (codes : RailCodes) : Pmg :=
  { p with
    rails := codes, ts := tempStage p.ts codes.temp.toNat, bs := brownOutStage p.bs codes.vin.toNat
    scanPower := railPower codes }

theorem Pmg.measure_eq (p : Pmg) (codes : RailCodes) : p.measure codes = (p.sampled codes).addScan := rfl

/-- A figure that neither the stage in force nor the emergency moves is the one measured. -/
theorem Pmg.judged_same {α : Type} (f : Pmg → α)
    (hf : ∀ (p : Pmg) a b c, f { p with emergency := a, lowScans := b, emergencies := c } = f p)
    (hg : ∀ (p : Pmg) a b c d, f { p with stage := a, worst := b, stageChanges := c, scanDue := d } = f p)
    (p : Pmg) (codes : RailCodes) : f (p.judged codes) = f (p.sampled codes).addScan :=
  (Pmg.watched_same f hf _).trans (hg (p.sampled codes).addScan _ _ _ _)

section judged
variable (p : Pmg) (codes : RailCodes)

theorem Pmg.judged_rails : (p.judged codes).rails = codes :=
  (Pmg.judged_same Pmg.rails (fun _ _ _ _ => rfl) (fun _ _ _ _ _ => rfl) p codes).trans (Pmg.addScan_rails _)
theorem Pmg.judged_scanPower : (p.judged codes).scanPower = codes.vin.toNat * 10 * codes.iin.toNat / 1000 :=
  (Pmg.judged_same Pmg.scanPower (fun _ _ _ _ => rfl) (fun _ _ _ _ _ => rfl) p codes).trans (Pmg.addScan_scanPower _)
theorem Pmg.judged_scanDue : (p.judged codes).scanDue = p.scanDue + 1000 * 750 :=
  Pmg.watched_same Pmg.scanDue (fun _ _ _ _ => rfl) _
theorem Pmg.judged_ts : (p.judged codes).ts = tempStage p.ts codes.temp.toNat :=
  (Pmg.judged_same Pmg.ts (fun _ _ _ _ => rfl) (fun _ _ _ _ _ => rfl) p codes).trans (Pmg.addScan_ts _)
theorem Pmg.judged_bs : (p.judged codes).bs = brownOutStage p.bs codes.vin.toNat :=
  (Pmg.judged_same Pmg.bs (fun _ _ _ _ => rfl) (fun _ _ _ _ _ => rfl) p codes).trans (Pmg.addScan_bs _)
theorem Pmg.judged_contract : (p.judged codes).contract = p.contract :=
  (Pmg.judged_same Pmg.contract (fun _ _ _ _ => rfl) (fun _ _ _ _ _ => rfl) p codes).trans (Pmg.addScan_contract _)
theorem Pmg.judged_rows : (p.judged codes).rows = p.rows :=
  (Pmg.judged_same Pmg.rows (fun _ _ _ _ => rfl) (fun _ _ _ _ _ => rfl) p codes).trans (Pmg.addScan_rows _)
theorem Pmg.judged_window : (p.judged codes).window = (p.sampled codes).addScan.window :=
  Pmg.judged_same Pmg.window (fun _ _ _ _ => rfl) (fun _ _ _ _ _ => rfl) p codes
theorem Pmg.judged_ps : (p.judged codes).ps = (p.sampled codes).addScan.ps :=
  Pmg.judged_same Pmg.ps (fun _ _ _ _ => rfl) (fun _ _ _ _ _ => rfl) p codes
theorem Pmg.judged_lastAverage : (p.judged codes).lastAverage = (p.sampled codes).addScan.lastAverage :=
  Pmg.judged_same Pmg.lastAverage (fun _ _ _ _ => rfl) (fun _ _ _ _ _ => rfl) p codes
theorem Pmg.judged_below : (p.judged codes).below = (p.sampled codes).addScan.below :=
  Pmg.judged_same Pmg.below (fun _ _ _ _ => rfl) (fun _ _ _ _ _ => rfl) p codes
theorem Pmg.judged_overContract : (p.judged codes).overContract = (p.sampled codes).addScan.overContract :=
  Pmg.judged_same Pmg.overContract (fun _ _ _ _ => rfl) (fun _ _ _ _ _ => rfl) p codes

theorem Pmg.scanned_stage : (p.scanned codes).stage = p.stage := Pmg.addScan_stage _

theorem Pmg.judged_stage : (p.judged codes).stage = (p.scanned codes).greatest :=
  Pmg.watched_same Pmg.stage (fun _ _ _ _ => rfl) _

theorem Pmg.judged_greatest : (p.judged codes).stage =
    max (max (p.judged codes).ps (p.judged codes).ts) (p.judged codes).bs := by
  have hts : (p.judged codes).ts = (p.sampled codes).addScan.ts := (p.judged_ts codes).trans (Pmg.addScan_ts (p.sampled codes)).symm
  have hbs : (p.judged codes).bs = (p.sampled codes).addScan.bs := (p.judged_bs codes).trans (Pmg.addScan_bs (p.sampled codes)).symm
  rw [Pmg.judged_stage, Pmg.judged_ps, hts, hbs]
  rfl

theorem Pmg.judged_worst : (p.judged codes).worst =
    if (p.judged codes).stage = p.stage then p.worst else max p.worst (p.judged codes).stage := by
  have hw : (p.scanned codes).worst = p.worst := Pmg.addScan_worst _
  rw [Pmg.judged_stage, ← p.scanned_stage codes, ← hw]
  exact Pmg.watched_same Pmg.worst (fun _ _ _ _ => rfl) _

theorem Pmg.judged_stageChanges : (p.judged codes).stageChanges =
    if (p.judged codes).stage = p.stage then p.stageChanges else satInc p.stageChanges := by
  have hc : (p.scanned codes).stageChanges = p.stageChanges := Pmg.addScan_stageChanges _
  rw [Pmg.judged_stage, ← p.scanned_stage codes, ← hc]
  exact Pmg.watched_same Pmg.stageChanges (fun _ _ _ _ => rfl) _

theorem Pmg.restaged_emergency : (p.scanned codes).restaged.emergency = p.emergency := Pmg.addScan_emergency _
theorem Pmg.restaged_lowScans : (p.scanned codes).restaged.lowScans = p.lowScans := Pmg.addScan_lowScans _
theorem Pmg.restaged_emergencies : (p.scanned codes).restaged.emergencies = p.emergencies := Pmg.addScan_emergencies _
theorem Pmg.restaged_rails : (p.scanned codes).restaged.rails = codes := Pmg.addScan_rails _

theorem Pmg.restaged_begins_iff : (p.scanned codes).restaged.begins ↔
    p.emergency = false ∧ codes.vin.toNat < 950 ∧ 3 ≤ p.lowScans := by
  unfold Pmg.begins
  rw [Pmg.restaged_emergency, Pmg.restaged_lowScans, Pmg.restaged_rails]

end judged

end Sys2Proof.Machine
end

section
/-! RAIL_SCAN_END settled: what the Scan-Out, the messages and the reports show of the judgements. -/

namespace Sys2Proof.Machine

section reports
variable {s : State} {codes : RailCodes}

/-- A Power report's fields after a scan, from the state at its end. -/
def State.scanReport (s t : State) (codes : RailCodes) (cause : Nat) (emergency : Bool) : List Byte :=
  pack8 cause ++ pack8 t.pmg.ps.val ++ pack8 t.pmg.ts.val ++ pack8 t.pmg.bs.val ++ pack8 t.pmg.stage.val ++
    packFlag emergency ++ pack16 t.emissionCap ++ pack16 s.pmg.contract ++ pack32 t.pmg.lastAverage ++
    pack16 (codes.vin.toNat * 10) ++ packTime s.tas.now

/-- The fields at a scan's end are those of the state there. -/
theorem State.scan_fields (cause : Nat) : (s.scan codes).powerReportFields cause =
    s.scanReport (s.scan codes) codes cause (s.scan codes).pmg.emergency := by
  unfold State.powerReportFields State.scanReport
  simp only [State.scan_pmg, Pmg.judged_contract, Pmg.judged_rails, (s.scan_frame codes).tas]
  rfl

/-- The report of a change of the stage has them too, but for the emergency, judged after it. -/
theorem State.judgeStage_fields : (s.measured codes).judgeStage.powerReportFields 1 =
    s.scanReport (s.scan codes) codes 1 s.pmg.emergency := by
  have hcap : (s.scan codes).emissionCap = (s.measured codes).judgeStage.emissionCap := State.judgeEmergency_cap
  have hpmg := s.measured_judgeStage_pmg codes
  have same : ∀ {α : Type} (f : Pmg → α),
      (∀ (p : Pmg) a b c, f { p with emergency := a, lowScans := b, emergencies := c } = f p) →
      f (s.scan codes).pmg = f (s.pmg.scanned codes).restaged := fun f hf => by
    rw [State.scan_pmg]
    exact Pmg.watched_same f hf _
  have hcontract : (s.pmg.scanned codes).restaged.contract = s.pmg.contract := Pmg.addScan_contract _
  unfold State.powerReportFields State.scanReport
  simp only [hpmg, hcap, same Pmg.ps fun _ _ _ _ => rfl, same Pmg.ts fun _ _ _ _ => rfl,
    same Pmg.bs fun _ _ _ _ => rfl, same Pmg.stage fun _ _ _ _ => rfl, same Pmg.lastAverage fun _ _ _ _ => rfl,
    Pmg.restaged_emergency, hcontract, Pmg.restaged_rails, (s.measured_frame codes).tas]
  rfl

theorem State.measured_enables (s : State) (codes : RailCodes) :
    (s.measured codes).judgeStage.mge.enables = s.mge.enables := by
  rw [(State.judgeStage_only _).mge]
  exact (State.restaged_inProgress _).2

theorem State.measured_greatest : (s.scan codes).pmg.stage ≠ s.pmg.stage ↔
    (s.measured codes).pmg.greatest ≠ (s.measured codes).pmg.stage := by
  rw [State.scan_pmg, Pmg.judged_stage, ← Pmg.scanned_stage s.pmg codes]
  rfl

/-- A change of the stage is reported, and sets POWER. -/
theorem State.scan_stage_reported (h : (s.scan codes).pmg.stage ≠ s.pmg.stage) (hon : s.mge.enables.power = true) :
    Reported (s.scan codes) .power (s.scanReport (s.scan codes) codes 1 s.pmg.emergency) := by
  have hr := State.judgeStage_reported (s := s.measured codes) (State.measured_greatest.mp h) hon
  rw [State.judgeStage_fields] at hr
  exact (State.judgeEmergency_recent hr (by decide)).reported

theorem State.scan_stage_power (h : (s.scan codes).pmg.stage ≠ s.pmg.stage) :
    (s.scan codes).mge.summary &&& bitPower = bitPower := by
  refine State.judgeEmergency_power ?_
  rw [(State.judgeStage_only _).mge]
  exact State.restaged_power (State.measured_greatest.mp h)

/-- The beginning of the emergency is reported. -/
theorem State.scan_begins_reported (hb : (s.measured codes).judgeStage.pmg.begins)
    (hon : s.mge.enables.power = true) :
    Reported (s.scan codes) .power (s.scanReport (s.scan codes) codes 2 (s.scan codes).pmg.emergency) := by
  have hj := State.judgeEmergency_begins hb
  have hset := (s.measured codes).judgeStage.alarmed.forcePanels_only.withBits bitPower |>.trans
    (State.setSummary_only _ _)
  have hon' : ((s.measured codes).judgeStage.alarmed.forcePanels.setSummary bitPower).mge.enables.power = true := by
    rw [hset.mge]
    show (s.measured codes).judgeStage.mge.enables.power = true
    rw [State.measured_enables, hon]
  have hr := (State.powerReport_new 2 hon').reported
  rw [← hj, ← (State.powerReport_only _ 2).powerReportFields, ← hj] at hr
  rw [← State.scan_fields]
  exact hr

/-- The end of the emergency is reported. -/
theorem State.scan_ends_reported (he : s.pmg.emergency = true) (hv : 1080 ≤ codes.vin.toNat)
    (hon : s.mge.enables.power = true) :
    Reported (s.scan codes) .power (s.scanReport (s.scan codes) codes 3 (s.scan codes).pmg.emergency) := by
  have hpmg := s.measured_judgeStage_pmg codes
  have hj := State.judgeEmergency_ends (s := (s.measured codes).judgeStage)
    (by rw [hpmg, Pmg.restaged_emergency, he]) (by rw [hpmg, Pmg.restaged_rails]; exact hv)
  have hon' : (s.measured codes).judgeStage.alarmed.mge.enables.power = true := by
    show (s.measured codes).judgeStage.mge.enables.power = true
    rw [State.measured_enables, hon]
  have hr := (State.powerReport_new 3 hon').reported
  rw [← hj, ← (State.powerReport_only _ 3).powerReportFields, ← hj] at hr
  rw [← State.scan_fields]
  exact hr

end reports

/-! ## The panels and the requests in progress -/

section panels
variable {s : State} {codes : RailCodes}

theorem State.measured_panel (q : Panel) : (s.measured codes).judgeStage.panel q = { s.panel q with
    applied := if (s.scan codes).pmg.stage = s.pmg.stage then (s.panel q).applied
      else min (s.panel q).applied (s.scan codes).emissionCap } := by
  have hcap : (s.scan codes).emissionCap = (s.measured codes).restaged.emissionCap :=
    State.judgeEmergency_cap.trans (State.judgeStage_only _).emissionCap
  rw [(State.judgeStage_only _).panel, State.restaged_panel, hcap]
  have hiff : (s.measured codes).pmg.greatest = (s.measured codes).pmg.stage ↔
      (s.scan codes).pmg.stage = s.pmg.stage := (not_iff_not.mp State.measured_greatest).symm
  simp only [hiff]
  rfl

theorem State.measured_panel_state (q : Panel) :
    ((s.measured codes).judgeStage.panel q).state = (s.panel q).state := by
  rw [State.measured_panel]

theorem State.measured_inProgress : (s.measured codes).judgeStage.mge.inProgress = s.mge.inProgress :=
  (State.judgeStage_only _).inProgress.trans (State.restaged_inProgress _).1

theorem State.measured_serial : (s.measured codes).judgeStage.mge.nextSerial = s.mge.nextSerial :=
  (State.judgeStage_serial _).trans rfl

theorem State.measured_sco : (s.measured codes).judgeStage.sco.refreshDue = s.sco.refreshDue ∧
    (s.measured codes).judgeStage.sco.refreshing = s.sco.refreshing := by
  rw [(State.judgeStage_only _).sco]
  exact State.restaged_sco _

/-- Without a beginning emergency the panels move with the cap alone, and no request is answered. -/
theorem State.scan_quiet (hb : ¬ (s.measured codes).judgeStage.pmg.begins) :
    (s.scan codes).mge.inProgress = s.mge.inProgress ∧ (s.scan codes).mge.nextSerial = s.mge.nextSerial ∧
      (s.scan codes).sco = (s.measured codes).judgeStage.sco := by
  have hser : (s.measured codes).judgeStage.judgeEmergency.mge.nextSerial =
      (s.measured codes).judgeStage.mge.nextSerial := State.quiet_serial hb
  have hip : (s.measured codes).judgeStage.judgeEmergency.mge.inProgress =
      (s.measured codes).judgeStage.mge.inProgress := by rw [(State.quiet_only hb).inProgress, State.alarmed_mge]
  have hsco : (s.measured codes).judgeStage.judgeEmergency.sco = (s.measured codes).judgeStage.sco := by
    rw [(State.quiet_only hb).sco, State.alarmed_sco]
  rw [State.scan_eq, hser, hip, hsco]
  exact ⟨State.measured_inProgress, State.measured_serial, rfl⟩

theorem State.measured_endedBy (e : InProgress) : (s.measured codes).judgeStage.alarmed.endedBy e ↔ s.endedBy e := by
  have hp := fun q => State.measured_panel_state (s := s) (codes := codes) q
  show (e.kind = 0x40 ∧ (((((s.measured codes).judgeStage.panel .left).state = .rampUp ∧ _) ∨
    (((s.measured codes).judgeStage.panel .right).state = .rampUp ∧ _)))) ↔ _
  rw [hp, hp]
  rfl

/-- With a beginning emergency the panels are forced down. -/
theorem State.scan_panel (hb : (s.measured codes).judgeStage.pmg.begins) (q : Panel) :
    (s.scan codes).panel q = ((s.measured codes).judgeStage.panel q).force (s.osc + ms 5) := by
  have hosc : (s.measured codes).judgeStage.alarmed.osc = s.osc := (s.measured_frame codes).osc
  rw [State.scan_eq, State.begins_panel hb, State.forced_panel, State.alarmed_panel, hosc]

end panels

/-- With a beginning emergency the requests that ramp a panel up leave the in-progress set. -/
theorem State.scan_begins {s : State} {codes : RailCodes} (hb : (s.measured codes).judgeStage.pmg.begins)
    {p : InProgress → Bool} (hp : ∀ e, p e = true ↔ s.endedBy e) :
    (s.scan codes).mge.inProgress = (s.mge.inProgress.filter fun e => !p e) ∧
      (s.scan codes).mge.nextSerial = s.mge.nextSerial + (s.mge.inProgress.filter p).length ∧
      (∀ e ∈ s.mge.inProgress, s.endedBy e → ∃ n, s.mge.nextSerial ≤ n ∧
        (⟨n, e.kind, e.tag, .state, (s.scan codes).panelFields e.panelSet⟩ : Reply) ∈ (s.scan codes).outgoing) ∧
      (s.scan codes).sco.refreshDue = none ∧ (s.scan codes).mge.summary &&& bitPower = bitPower := by
  have hends : (s.measured codes).judgeStage.alarmed.ends = p := funext fun e => Bool.eq_iff_iff.mpr
    ((State.ends_iff _ e).trans ((State.measured_endedBy e).trans (hp e).symm))
  have hlist : (s.measured codes).judgeStage.endedList = s.mge.inProgress.filter p := by
    rw [← hends, ← State.measured_inProgress (s := s) (codes := codes)]
    exact State.endedList_alarmed _
  have honly := State.begins_only hb
  refine ⟨?_, ?_, fun e he hend => ?_, ?_, ?_⟩
  · rw [← hends, ← State.measured_inProgress (s := s) (codes := codes), State.scan_eq, honly.inProgress]
    exact State.forcedOut_inProgress _ _
  · have h := State.begins_serial hb
    rw [hlist, State.measured_serial] at h
    exact h
  · obtain ⟨n, hn, hr⟩ := State.begins_answers (e := e) hb (by
      rw [hlist]
      exact List.mem_filter.mpr ⟨he, (hp e).mpr hend⟩)
    rw [State.measured_serial] at hn
    rw [State.scan_eq, State.begins_panelFields hb]
    exact ⟨n, hn, hr⟩
  · exact State.begins_refreshDue hb
  · exact State.begins_power hb

end Sys2Proof.Machine
end

section
/-! RAIL_SCAN_END: the figures of the Power Manager case by case, and the obligation. -/

namespace Sys2Proof.Machine

section judged
variable {p : Pmg} {codes : RailCodes}

theorem Pmg.judged_closed (h : p.window = none) : (p.judged codes).window = none ∧ (p.judged codes).ps = p.ps := by
  rw [Pmg.judged_window, Pmg.judged_ps, Pmg.addScan_none (p := p.sampled codes) h]
  exact ⟨h, rfl⟩

theorem Pmg.judged_open {w : PowerWindow} (h : p.window = some w) (hl : w.scans + 1 < p.windowLength) :
    (p.judged codes).window = some ⟨w.sum + railPower codes, w.scans + 1⟩ ∧ (p.judged codes).ps = p.ps ∧
      (p.judged codes).lastAverage = p.lastAverage := by
  rw [Pmg.judged_window, Pmg.judged_ps, Pmg.judged_lastAverage, Pmg.addScan_open (p := p.sampled codes) h hl]
  exact ⟨rfl, rfl, rfl⟩

/-- The figures as a window's end finds them, its average taken. -/
def Pmg.averaged (p : Pmg) (codes : RailCodes) (w : PowerWindow) : Pmg :=
  { p.sampled codes with
    lastAverage := (w.sum + railPower codes) / p.windowLength, window := some ⟨0, 0⟩ }

section closes
variable {w : PowerWindow}

theorem Pmg.addScan_averaged (h : p.window = some w) (hl : p.windowLength ≤ w.scans + 1) :
    (p.sampled codes).addScan = (p.averaged codes w).judgePower := Pmg.addScan_closes (p := p.sampled codes) h hl

theorem Pmg.judged_ends (h : p.window = some w) (hl : p.windowLength ≤ w.scans + 1) :
    (p.judged codes).window = some ⟨0, 0⟩ ∧
      (p.judged codes).lastAverage = (w.sum + railPower codes) / p.windowLength := by
  rw [Pmg.judged_window, Pmg.judged_lastAverage, Pmg.addScan_averaged h hl]
  exact Pmg.judgePower_window

theorem Pmg.judged_over (h : p.window = some w) (hl : p.windowLength ≤ w.scans + 1)
    (ho : p.contract < (w.sum + railPower codes) / p.windowLength) :
    (p.judged codes).ps = (if p.ps = 3 then 3 else p.ps + 1) ∧ (p.judged codes).below = 0 ∧
      (p.judged codes).overContract = satInc p.overContract := by
  rw [Pmg.judged_ps, Pmg.judged_below, Pmg.judged_overContract, Pmg.addScan_averaged h hl,
    Pmg.judgePower_over (p := p.averaged codes w) ho]
  exact ⟨rfl, rfl, rfl⟩

theorem Pmg.judged_within (h : p.window = some w) (hl : p.windowLength ≤ w.scans + 1)
    (h1 : (w.sum + railPower codes) / p.windowLength ≤ p.contract)
    (h2 : p.contract ≤ (w.sum + railPower codes) / p.windowLength + p.hysteresis) :
    (p.judged codes).ps = p.ps ∧ (p.judged codes).below = 0 := by
  rw [Pmg.judged_ps, Pmg.judged_below, Pmg.addScan_averaged h hl,
    Pmg.judgePower_within (p := p.averaged codes w) h1 h2]
  exact ⟨rfl, rfl⟩

theorem Pmg.judged_firstBelow (h : p.window = some w) (hl : p.windowLength ≤ w.scans + 1)
    (hu : (w.sum + railPower codes) / p.windowLength + p.hysteresis < p.contract) (hb : p.below = 0) :
    (p.judged codes).ps = p.ps ∧ (p.judged codes).below = 1 := by
  rw [Pmg.judged_ps, Pmg.judged_below, Pmg.addScan_averaged h hl,
    Pmg.judgePower_firstBelow (p := p.averaged codes w) hu hb]
  exact ⟨rfl, rfl⟩

theorem Pmg.judged_secondBelow (h : p.window = some w) (hl : p.windowLength ≤ w.scans + 1)
    (hu : (w.sum + railPower codes) / p.windowLength + p.hysteresis < p.contract) (hb : p.below = 1) :
    (p.judged codes).ps = (if p.ps = 0 then 0 else p.ps - 1) ∧ (p.judged codes).below = 0 := by
  rw [Pmg.judged_ps, Pmg.judged_below, Pmg.addScan_averaged h hl,
    Pmg.judgePower_secondBelow (p := p.averaged codes w) hu hb]
  exact ⟨rfl, rfl⟩

end closes

/-! ### The emergency -/

theorem Pmg.judged_alarmed (he : p.emergency = true) :
    (p.judged codes).emergency = decide (codes.vin.toNat < 1080) := by
  have hr : (p.scanned codes).restaged.emergency = true := by rw [Pmg.restaged_emergency, he]
  unfold Pmg.judged Pmg.watched
  rw [if_pos hr, Pmg.restaged_rails]

theorem Pmg.judged_clear (he : p.emergency = false) (hv : 950 ≤ codes.vin.toNat) :
    (p.judged codes).emergency = false ∧ (p.judged codes).lowScans = 0 := by
  unfold Pmg.judged
  rw [Pmg.watched_clear (by rw [Pmg.restaged_emergency, he]) (by rw [Pmg.restaged_rails]; exact hv)]
  exact ⟨(Pmg.restaged_emergency _ _).trans he, rfl⟩

theorem Pmg.judged_low (he : p.emergency = false) (hv : codes.vin.toNat < 950) (hl : p.lowScans < 3) :
    (p.judged codes).emergency = false ∧ (p.judged codes).lowScans = p.lowScans + 1 := by
  unfold Pmg.judged
  rw [Pmg.watched_low (by rw [Pmg.restaged_emergency, he]) (by rw [Pmg.restaged_rails]; exact hv)
    (by rw [Pmg.restaged_lowScans]; exact hl)]
  exact ⟨(Pmg.restaged_emergency _ _).trans he, congrArg (· + 1) (Pmg.restaged_lowScans _ _)⟩

theorem Pmg.judged_begins (h : (p.scanned codes).restaged.begins) : (p.judged codes).emergency = true ∧
    (p.judged codes).lowScans = 4 ∧ (p.judged codes).emergencies = satInc p.emergencies := by
  unfold Pmg.judged
  rw [Pmg.watched_begins h]
  exact ⟨rfl, rfl, congrArg satInc (Pmg.restaged_emergencies _ _)⟩

theorem Pmg.judged_emergencies (h : ¬ (p.scanned codes).restaged.begins) :
    (p.judged codes).emergencies = p.emergencies :=
  (Pmg.watched_emergencies h).trans (Pmg.restaged_emergencies _ _)

/-- The emergency comes on only where it begins. -/
theorem Pmg.judged_begun (he : p.emergency = false) (ho : (p.judged codes).emergency = true) :
    (p.scanned codes).restaged.begins := by
  refine (Pmg.restaged_begins_iff _ _).mpr ⟨he, ?_, ?_⟩
  · refine Nat.lt_of_not_le fun hv => ?_
    rw [(Pmg.judged_clear he hv).1] at ho
    cases ho
  · refine Nat.le_of_not_lt fun hl => ?_
    by_cases hv : codes.vin.toNat < 950
    · rw [(Pmg.judged_low he hv hl).1] at ho
      cases ho
    · rw [(Pmg.judged_clear he (Nat.not_lt.mp hv)).1] at ho
      cases ho

end judged

/-- Settles O39. The Power Manager after the scan is worked out first (`Pmg.judged`); the panels, the requests and
the reports follow by whether the emergency begins. -/
theorem railScanJudges : Obligations.RailScanJudges := by
  intro codes s hp u p vin temp power report begins ended
  have hpmg : (u.scan codes).pmg = p.judged codes := u.scan_pmg codes
  have hfr := u.scan_frame codes
  have hbegins : (u.measured codes).judgeStage.pmg.begins ↔ begins := by
    rw [State.measured_judgeStage_pmg]
    exact Pmg.restaged_begins_iff _ _
  have hbegins' : (p.scanned codes).restaged.begins ↔ begins := Pmg.restaged_begins_iff _ _
  refine ⟨u.scan codes, exec_railScanEnd codes hp, hfr.tas, hfr.osc, ?_⟩
  rw [hpmg]
  refine ⟨Pmg.judged_rails _ _, Pmg.judged_scanPower _ _, Pmg.judged_scanDue _ _, fun h => ?_, fun h => ?_,
    fun h => ?_, fun h => ?_, fun h => ?_, Pmg.judged_closed, fun w h hl => Pmg.judged_open h hl, fun w h hl => ?_,
    Pmg.judged_greatest _ _, Pmg.judged_alarmed, Pmg.judged_clear, Pmg.judged_low, fun h => ?_, fun h => ?_,
    fun hb => ?_, fun hb => ?_, fun hb => ?_, fun h => ?_, fun he ho => ?_, fun he ho => ?_, Pmg.judged_contract _ _,
    Pmg.judged_rows _ _, hfr.smp, hfr.ori, hfr.fri, hfr.cfl, hfr.cst⟩
  · rw [Pmg.judged_ts, h, tempStage_zero]
  · rw [Pmg.judged_ts, h, tempStage_two]
  · rw [Pmg.judged_ts, h, tempStage_three]
  · rw [Pmg.judged_bs, h, brownOutStage_zero]
  · rw [Pmg.judged_bs, h, brownOutStage_three]
  · intro avg
    obtain ⟨hw, ha⟩ := Pmg.judged_ends (codes := codes) h hl
    exact ⟨hw, ha, Pmg.judged_over h hl, Pmg.judged_within h hl, fun hu =>
      ⟨Pmg.judged_firstBelow h hl hu, Pmg.judged_secondBelow h hl hu⟩⟩
  · rw [Pmg.judged_stageChanges, Pmg.judged_worst, if_pos h, if_pos h]
    exact ⟨rfl, rfl⟩
  · rw [Pmg.judged_stageChanges, Pmg.judged_worst, if_neg h, if_neg h]
    exact ⟨rfl, rfl⟩
  · have hj := hbegins.mpr hb
    obtain ⟨he, hl, hc⟩ := Pmg.judged_begins (hbegins'.mpr hb)
    obtain ⟨-, -, -, hdue, hpow⟩ := State.scan_begins hj (p := u.ends) u.ends_iff
    refine ⟨he, hl, hc, hdue, hpow, fun q => ?_⟩
    rw [State.scan_panel hj q]
    have hpanel := State.measured_panel (s := u) (codes := codes) q
    refine ⟨fun hup => ?_, fun hdown => ?_⟩
    · rw [PanelCtl.force_up _ (by rw [State.measured_panel_state]; exact hup), hpanel]
      exact ⟨rfl, rfl, rfl, rfl, rfl⟩
    · rw [PanelCtl.force_down _ (by rw [State.measured_panel_state]; exact hdown), hpanel]
      exact ⟨rfl, rfl, rfl⟩
  · have hj := hbegins.mpr hb
    obtain ⟨hin, hser, hans, -, -⟩ := State.scan_begins hj (p := fun e => decide (ended e)) fun e => decide_eq_true_iff
    refine ⟨?_, hser, fun e he hend names set hres => ?_⟩
    · rw [hin]
      exact List.filter_congr fun e _ => (decide_not).symm
    · obtain ⟨n, hn, hr⟩ := hans e he hend
      have hset : e.panelSet = set := by
        unfold InProgress.panelSet
        rw [hres]
      rw [hset, hend.1] at hr
      exact ⟨n, hn, hr⟩
  · obtain ⟨hin, hser, hsco⟩ := State.scan_quiet fun hj => hb (hbegins.mp hj)
    obtain ⟨hdue, href⟩ := State.measured_sco (s := u) (codes := codes)
    refine ⟨Pmg.judged_emergencies fun hj => hb (hbegins'.mp hj), hin, hser, by rw [hsco, hdue]; rfl,
      by rw [hsco, href]; rfl, fun q => ?_⟩
    have hpanel := State.measured_panel (s := u) (codes := codes) q
    rw [hpmg] at hpanel
    refine Eq.trans ?_ hpanel
    unfold State.panel
    rw [hsco]
  · rw [← hpmg] at h
    exact ⟨State.scan_stage_reported (s := u) h, State.scan_stage_power h⟩
  · intro hon
    have hb := Pmg.judged_begun he ho
    have hr := State.scan_begins_reported (s := u) (hbegins.mpr (hbegins'.mp hb)) hon
    rw [hpmg, ho] at hr
    exact hr
  · intro hon
    rw [Pmg.judged_alarmed he] at ho
    have hr := State.scan_ends_reported (s := u) he (Nat.not_lt.mp (of_decide_eq_false ho)) hon
    rw [hpmg, Pmg.judged_alarmed he, ho] at hr
    exact hr

end Sys2Proof.Machine
end

section
/-! The link's requests (8.8), its entry to TRAIN (8.2.1), lock loss and markers (8.2.2, 8.5). -/

namespace Sys2Proof.Machine

/-! ## Requests (R142, R147, R148) -/

theorem exec_readLinkStatus (tag : Byte) (ps : List Byte) (s : State) :
    exec (.readLinkStatus tag ps) s = s.immediate 0x60 tag ps readLinkStatus := rfl
theorem exec_readLinkCounters (tag : Byte) (ps : List Byte) (s : State) :
    exec (.readLinkCounters tag ps) s = s.immediate 0x61 tag ps readLinkCounters := rfl
theorem exec_setLinkQuality (tag : Byte) (ps : List Byte) (s : State) :
    exec (.setLinkQuality tag ps) s = s.immediate 0x62 tag ps setLinkQuality := rfl

/-- Free bytes taken move the index of free values alone. -/
theorem takeFrees_state (n : Nat) (s : State) : (s.takeFrees n).2 = s.setFree (s.freeIndex + n) := by
  induction n generalizing s with
  | zero => rfl
  | succ n ih =>
    refine (ih _).trans ?_
    show s.setFree (s.freeIndex + 1 + n) = _
    rw [Nat.add_assoc, Nat.add_comm 1 n]

theorem readLinkStatus_reads (s : State) : readLinkStatus [] s =
    ⟨.done, s.lnk.headFields ++ s.partnerFields.1 ++ s.lnk.tailFields s.osc,
      s.partnerFields.2.setLnk s.lnk.readStatus⟩ := if_neg (by simp)

theorem State.partnerFields_some {s : State} {w : HostWord} (h : s.lnk.partner = some w) : s.partnerFields =
    ([1] ++ pack8 (w.half.toNat + 2 * w.full.toNat) ++ [w.lanes] ++ packFlag w.quiet ++
      pack8 (s.lnk.grantReceived.getD 0) ++ pack8 (s.lnk.grantApplied.getD 0) ++ [w.user], s) := by
  unfold State.partnerFields
  rw [h]
  rfl

theorem State.partnerFields_none {s : State} (h : s.lnk.partner = none) : s.partnerFields =
    ([0] ++ (s.takeFrees 6).1, s.setFree (s.freeIndex + 6)) := by
  unfold State.partnerFields
  rw [h, ← takeFrees_state]

theorem qualityWindowOf_eq (w : Nat) : qualityWindowOf w =
    if w < 256 then 128 else if w < 512 then 256 else if w < 1024 then 512 else 1024 := by
  unfold qualityWindowOf
  split_ifs <;> omega

/-- The thresholds pass the model's check just when they are in range and strictly decrease. -/
theorem thresholdsOk_iff (t : Vector Nat 7) : thresholdsOk t = true ↔
    (∀ i : Fin 7, t[i] ≤ 1023) ∧ ∀ i j : Fin 7, i < j → t[j] < t[i] := by
  have hrange : (t.toList.all fun x => decide (x ≤ 1023)) = true ↔ ∀ i : Fin 7, t[i] ≤ 1023 := by
    rw [List.all_eq_true]
    refine ⟨fun h i => of_decide_eq_true (h _ ?_), fun h x hx => decide_eq_true ?_⟩
    · exact Vector.mem_toList_iff.mpr (Vector.getElem_mem i.isLt)
    · obtain ⟨i, hi, rfl⟩ := Vector.mem_iff_getElem.mp (Vector.mem_toList_iff.mp hx)
      exact h ⟨i, hi⟩
  have horder : (([0, 1, 2, 3, 4, 5] : List (Fin 6)).all fun i => decide (t[i.val + 1] < t[i.val])) = true ↔
      ∀ i j : Fin 7, i < j → t[j] < t[i] := by
    have hanti : StrictAnti (fun i : Fin 7 => t[i]) ↔ ∀ i : Fin 6, t[i.val + 1] < t[i.val] :=
      Fin.strictAnti_iff_succ_lt
    rw [List.all_eq_true]
    refine Iff.trans ⟨fun h i => of_decide_eq_true (h i ?_), fun h i _ => decide_eq_true (h i)⟩
      (hanti.symm.trans ⟨fun h i j hij => h hij, fun h i j hij => h i j hij⟩)
    fin_cases i <;> decide
  unfold thresholdsOk
  rw [Bool.and_eq_true, hrange, horder]

theorem setLinkQuality_sets {ps : List Byte} {s : State} (hl : ps.length = 18) : setLinkQuality ps s =
    let q : QualitySettings :=
      ⟨if field ps 0 2 < 256 then 128 else if field ps 0 2 < 512 then 256 else if field ps 0 2 < 1024 then 512
        else 1024, thresholdsOf ps, min (field ps 16 1) 63, min (field ps 17 1) 6⟩
    if thresholdsOk (thresholdsOf ps) = true then ⟨.done, q.fields, s.setLnk (s.lnk.setQuality q s.osc)⟩
    else s.refuse .range := by
  refine (if_neg (not_not.mpr hl)).trans ?_
  rw [qualityWindowOf_eq]

/-- Settles O48. -/
theorem linkRequestsApplied : Obligations.LinkRequestsApplied := by
  refine ⟨fun tag s h => ?_, fun tag b s h => ?_, fun tag ps s h hl => ?_⟩
  · intro l
    rw [exec_readLinkStatus]
    have ha := readLinkStatus_reads s.popRequest
    refine ⟨fun w hw => ?_, fun hw => ?_⟩
    · rw [State.partnerFields_some (s := s.popRequest) hw] at ha
      exact State.immediate_answers h ha rfl
    · rw [State.partnerFields_none (s := s.popRequest) hw] at ha
      obtain ⟨t, ht, hm, hans⟩ := State.immediate_answers h ha rfl
      exact ⟨t, _, ht, hm, takeFrees_length 6 _, hans⟩
  · rw [exec_readLinkCounters]
    exact State.immediate_cleared h s.popRequest.setLnk rfl (fun _ => rfl) (if_neg (by simp))
  · intro th w q ok
    rw [exec_setLinkQuality]
    have ha := setLinkQuality_sets (s := s.popRequest) hl
    refine ⟨fun ho => ?_, fun ho => ?_⟩
    · exact State.immediate_answers h (ha.trans (if_pos ((thresholdsOk_iff _).mpr ho))) rfl
    · exact State.immediate_refused h (ha.trans (if_neg fun hc => ho ((thresholdsOk_iff _).mp hc)))

/-! ## Entry to TRAIN (R131) -/

theorem exec_d0SignalDetect {s : State} (hp : s.powered = true) :
    exec .d0SignalDetect s = .next (s.setLnk { s.lnk with d0Signal := true }).tryTrain := by
  have he : exec .d0SignalDetect s = execD0SignalDetect s := rfl
  rw [he, execD0SignalDetect, State.live_powered]
  exact hp

theorem exec_backoffEnd {s : State} {ends : Nat} (hp : s.powered = true) (h : s.lnk.backoff = some ends) :
    exec .backoffEnd s = .next ((s.advanceTo ends).setLnk { s.lnk with backoff := none }).tryTrain := by
  have he : exec .backoffEnd s = execBackoffEnd s := rfl
  rw [he, execBackoffEnd, State.live_powered hp]
  simp only [h]
  rfl

theorem State.tryTrain_enters {s : State} (h : s.lnk.mayTrain = true) : s.tryTrain = s.enterTrain := if_pos h

theorem State.tryTrain_stays {s : State} (h : ¬ s.lnk.mayTrain = true) : s.tryTrain = s := if_neg h

/-- Settles O41. -/
theorem trainingBeginsOnSignal : Obligations.TrainingBeginsOnSignal := by
  unfold Obligations.TrainingBeginsOnSignal
  intro enters s hp x y
  have enter : ∀ z : State, z.lnk.mayTrain = true → enters z z.tryTrain := fun z hz => by
    rw [State.tryTrain_enters hz]
    exact State.enterTrain_only z
  refine ⟨rfl, fun ⟨hs, hb, hl⟩ => ?_, fun h => ?_, fun ends hb => ⟨fun ⟨hs, hd, hl⟩ => ?_, fun h => ?_⟩⟩
  · exact ⟨_, exec_d0SignalDetect hp, enter x ((Lnk.mayTrain_iff _).mpr ⟨hs, hb, hl, rfl⟩)⟩
  · rw [exec_d0SignalDetect hp, State.tryTrain_stays]
    intro hc
    obtain ⟨hs, hb, hl, -⟩ := (Lnk.mayTrain_iff _).mp hc
    rcases h with h | h | h
    · exact h hs
    · exact h hb
    · exact absurd (h.symm.trans hl) (by decide)
  · exact ⟨_, exec_backoffEnd hp hb, enter (y ends) ((Lnk.mayTrain_iff _).mpr ⟨hs, rfl, hl, hd⟩)⟩
  · rw [exec_backoffEnd hp hb, State.tryTrain_stays]
    intro hc
    obtain ⟨hs, -, hl, hd⟩ := (Lnk.mayTrain_iff _).mp hc
    rcases h with h | h | h
    · exact h hs
    · exact absurd (h.symm.trans hd) (by decide)
    · exact absurd (h.symm.trans hl) (by decide)

end Sys2Proof.Machine
end

section
/-! Lock loss and markers (8.2.2, 8.5), and the remote loopback (8.7). -/

namespace Sys2Proof.Machine

/-! ## Lock loss, markers -/

theorem State.live_eq {s : State} {f : State → State} {i : Instr} (hp : s.powered = true)
    (he : exec i s = s.live f) : exec i s = .next (f s) := by
  rw [he, State.live_powered hp]

theorem exec_laneLockLoss {s : State} (lane : Lane) (cut : Bool) (hp : s.powered = true) :
    exec (.laneLockLoss lane cut) s = .next
      (if (s.lnk.state = .up ∨ s.lnk.state = .quiet) ∧ s.lnk.active[lane] = true ∧ s.lnk.locked[lane] = true then
        (s.setLock lane false).enterRecover s.lnk.currentRate cut
      else s.setLock lane false) :=
  State.live_eq hp (f := fun s => if (s.lnk.state = .up ∨ s.lnk.state = .quiet) ∧ s.lnk.active[lane] = true ∧
      s.lnk.locked[lane] = true then
        (s.setLock lane false).enterRecover s.lnk.currentRate cut
      else s.setLock lane false) rfl

theorem exec_laneWordLock {s : State} (lane : Lane) (hp : s.powered = true) : exec (.laneWordLock lane) s =
    .next (if s.lnk.state = .down then s else (s.setLock lane true).tryComplete) :=
  State.live_eq hp (f := fun s => if s.lnk.state = .down then s else (s.setLock lane true).tryComplete) rfl

theorem exec_hostAbilityWord {s : State} (w : HostWord) (hp : s.powered = true) : exec (.hostAbilityWord w) s =
    .next (if s.lnk.locked[0] = true then s.hostWord w else s) :=
  State.live_eq hp (f := fun s => if s.lnk.locked[0] = true then s.hostWord w else s) rfl

/-- Entry to RECOVER, its two counters written out. -/
theorem Lnk.enterRecover_eq (l : Lnk) (target : LaneRate) (cut : Bool) (osc : Nat) : l.enterRecover target cut osc =
    { l.endLoopback osc with
      state := .recover, target := target, wordArrived := false, limit := some (osc + ms 10), windowEnd := none
      crcTally := 0
      counters := { (l.endLoopback osc).counters with
        recoveries := satInc l.counters.recoveries
        malformed := if cut = true ∧ l.state = .up then satInc l.counters.malformed else l.counters.malformed } } := by
  have hm : (cut && decide (l.state = .up)) = true ↔ cut = true ∧ l.state = .up := by simp
  unfold Lnk.enterRecover
  simp only [hm]
  rfl

/-- Nothing completes where a condition for it is missing. -/
theorem State.tryComplete_waits {s : State} (h : s.lnk.locked[0] = false ∨
    (s.lnk.state = .train ∧ s.lnk.heldWord = none) ∨ (s.lnk.state = .recover ∧ s.lnk.wordArrived = false) ∨
    s.lnk.state = .up ∨ s.lnk.state = .quiet) : s.tryComplete = s := by
  unfold State.tryComplete
  rcases h with h | ⟨h, hw⟩ | ⟨h, hw⟩ | h | h
  · exact if_neg (by rw [h]; decide)
  · simp only [h, hw, ite_self]
  · simp only [h, hw, ite_self]
  · simp only [h, ite_self]
  · simp only [h, ite_self]

theorem State.hostWord_unread {s : State} (w : HostWord)
    (h : s.lnk.state = .up ∨ s.lnk.state = .quiet ∨ s.lnk.state = .down) : s.hostWord w = s := by
  unfold State.hostWord
  rcases h with h | h | h <;> simp only [h]

theorem exec_quietMarker {s : State} (cut : Bool) (hp : s.powered = true) : exec (.quietMarker cut) s =
    .next (if s.lnk.state = .up then
      if s.lnk.partner.any HostWord.quiet = true then (s.setLnk (s.lnk.enterQuiet cut s.osc)).arbitrate
      else s.protocolError
    else s) :=
  State.live_eq hp (f := fun s => if s.lnk.state = .up then
      if s.lnk.partner.any HostWord.quiet = true then (s.setLnk (s.lnk.enterQuiet cut s.osc)).arbitrate
      else s.protocolError
    else s) rfl

theorem exec_wakeMarker_quiet {s : State} (hp : s.powered = true) (h : s.lnk.state = .quiet) :
    exec .wakeMarker s = .next (s.setLnk { s.lnk with
      state := .up, lowWindows := 0, crcTally := 0
      windowEnd := some (s.osc + s.lnk.quality.windowLength * 750) }) := by
  have he : exec .wakeMarker s = execWakeMarker s := rfl
  rw [he, execWakeMarker, State.live_powered hp, h]
  rfl

theorem exec_wakeMarker_up {s : State} (hp : s.powered = true) (h : s.lnk.state = .up) :
    exec .wakeMarker s = .next s.protocolError := by
  have he : exec .wakeMarker s = execWakeMarker s := rfl
  rw [he, execWakeMarker, State.live_powered hp, h]

theorem get_set_zero {v : Vector Bool 4} {lane : Lane} (h : lane ≠ 0) (b : Bool) :
    (v.set lane b)[0] = v[0] :=
  Vector.getElem_set_ne _ _ fun e => h (Fin.ext e)

/-- Settles O44, by the link state. -/
theorem lockLossAndMarkers : Obligations.LockLossAndMarkers := by
  intro s hp c ended misplaced
  refine ⟨fun lane cut => ?_, fun lane => ?_, fun w h => ?_, fun cut w hs hw => ⟨fun hq => ?_, fun hq => ?_⟩,
    fun cut hs => ?_, exec_wakeMarker_quiet hp, exec_wakeMarker_up hp⟩
  · intro unlocked
    have he := exec_laneLockLoss lane cut hp
    refine ⟨fun hs ha hl => ?_, fun h => ?_⟩
    · rw [if_pos ⟨hs, ha, hl⟩] at he
      have hm := State.enterRecover_only (s.setLock lane false) s.lnk.currentRate cut
      rw [Lnk.enterRecover_eq] at hm
      exact ⟨_, he, hm⟩
    · rw [if_neg] at he
      · exact he
      · rintro ⟨hs, ha, hl⟩
        rcases h with h | h | ⟨h1, h2⟩
        · exact absurd (h.symm.trans ha) (by decide)
        · exact absurd (h.symm.trans hl) (by decide)
        · exact hs.elim h1 h2
  · intro locked
    have he := exec_laneWordLock lane hp
    refine ⟨fun hs => he.trans (by rw [if_pos hs]), fun hs h => ?_⟩
    rw [if_neg hs, State.tryComplete_waits] at he
    · exact he
    · rcases h with ⟨hne, h0⟩ | h
      · exact .inl ((get_set_zero hne true).trans h0)
      · exact .inr h
  · rw [exec_hostAbilityWord w hp]
    rcases h with h | h
    · rw [if_neg (by rw [h]; decide)]
    · rw [State.hostWord_unread w h, ite_self]
  · rw [exec_quietMarker cut hp, if_pos hs, if_pos (by rw [hw]; exact hq)]
    exact ⟨_, rfl, State.arbitrate_only _⟩
  · rw [exec_quietMarker cut hp, if_pos hs, if_neg (by rw [hw]; show ¬ w.quiet = true; rw [hq]; decide)]
    rfl
  · rw [exec_quietMarker cut hp, if_neg hs]

/-! ## Remote loopback -/

theorem exec_linkLoopback (tag : Byte) (ps : List Byte) (s : State) :
    exec (.linkLoopback tag ps) s = s.immediate 0x64 tag ps linkLoopback := rfl

section linkLoopback
variable {d : Byte} {s : State}

theorem linkLoopback_arms (hs : s.lnk.state = .up) (hl : s.lnk.loopback = .none) : linkLoopback [d] s =
    ⟨.done, pack8 (max 1 (min 60 d.toNat)),
      s.setLnk { s.lnk with loopback := .armed (max 1 (min 60 d.toNat)) s.mge.nextSerial }⟩ := by
  unfold linkLoopback
  rw [if_neg (by simp), field_one]
  simp only [hs, hl]
  rfl

theorem linkLoopback_busy (h : (s.lnk.state = .up ∧ s.lnk.loopback ≠ .none) ∨
    (s.lnk.state ≠ .up ∧ s.lnk.state ≠ .quiet)) : linkLoopback [d] s = s.refuse .busy := by
  unfold linkLoopback
  rw [if_neg (by simp)]
  split
  · rename_i hu hn
    rcases h with ⟨-, h⟩ | ⟨h, -⟩
    · exact absurd hn h
    · exact absurd hu h
  · rename_i hq
    rcases h with ⟨h, -⟩ | ⟨-, h⟩
    · rw [h] at hq
      cases hq
    · exact absurd hq h
  · rfl

theorem linkLoopback_state (h : s.lnk.state = .quiet) : linkLoopback [d] s = s.refuse .state := by
  unfold linkLoopback
  rw [if_neg (by simp)]
  simp only [h]

end linkLoopback

theorem U0.justArrived_echo (f : List Byte) (arrived : Bool) (ends osc : Nat) :
    (U0.echo f arrived ends).justArrived osc = (arrived && decide (osc + f.length * 24 ≤ ends)) := rfl

theorem Lnk.endLoopback_eq {l : Lnk} {osc : Nat} {late : Bool} (h : l.u0.justArrived osc = late) :
    l.endLoopback osc = { l with
      loopback := .none, echoQueue := [], u0 := if late then .idle else l.u0
      counters := { l.counters with
        echoDrops := satAdd l.counters.echoDrops (l.echoQueue.length + late.toNat) } } := by
  rw [← h]
  rfl

theorem exec_loopbackTimerExpiry {s : State} {ends : Nat} (hp : s.powered = true)
    (h : s.lnk.loopback = .running ends) : exec .loopbackTimerExpiry s =
      .next ((s.advanceTo ends).setLnk (s.lnk.endLoopback (s.advanceTo ends).osc)).arbitrate := by
  have he : exec .loopbackTimerExpiry s = execLoopbackTimerExpiry s := rfl
  rw [he, execLoopbackTimerExpiry, State.live_powered hp]
  simp only [h]
  rfl

theorem exec_echoTransmissionComplete {s : State} {f : List Byte} {arrived : Bool} {sent : Nat}
    (hp : s.powered = true) (h : s.lnk.u0 = .echo f arrived sent) : exec .echoTransmissionComplete s =
      .next ((s.advanceTo sent).setLnk { s.lnk with counters := { s.lnk.counters with
        sent := satInc s.lnk.counters.sent, echoed := satInc s.lnk.counters.echoed } }).freeLane := by
  have he : exec .echoTransmissionComplete s = execEchoTransmissionComplete s := rfl
  rw [he, execEchoTransmissionComplete, State.live_powered hp]
  simp only [h]
  rfl

/-! ### A free lane -/

/-- The state with U0 free. -/
def State.laneFreed (s : State) : State := s.setLnk { s.lnk with u0 := .idle }

theorem State.sendEcho_none {s : State} (h : s.lnk.echoQueue = []) : s.sendEcho = s := by
  unfold State.sendEcho
  split
  · rename_i f rest _ hq
    rw [h] at hq
    cases hq
  · rfl

theorem State.sendEcho_next {s : State} {g : List Byte} {rest : List (List Byte)} (hu : s.lnk.u0 = .idle)
    (h : s.lnk.echoQueue = g :: rest) : s.sendEcho =
      s.setLnk { s.lnk with echoQueue := rest, u0 := .echo g false (s.osc + g.length * 24) } := by
  unfold State.sendEcho
  simp only [hu, h]
  rfl

theorem State.freeLane_suspended {s : State} (h : s.lnk.suspended = true) : s.freeLane = s.laneFreed.sendEcho :=
  if_pos h

theorem State.freeLane_noEcho {s : State} (h : s.lnk.suspended = true) (hq : s.lnk.echoQueue = []) :
    s.freeLane = s.setLnk { s.lnk with u0 := .idle } :=
  (State.freeLane_suspended h).trans (State.sendEcho_none hq)

theorem State.freeLane_nextEcho {s : State} {g : List Byte} {rest : List (List Byte)} (h : s.lnk.suspended = true)
    (hq : s.lnk.echoQueue = g :: rest) : s.freeLane =
      s.setLnk { s.lnk with echoQueue := rest, u0 := .echo g false (s.osc + g.length * 24) } :=
  (State.freeLane_suspended h).trans (State.sendEcho_next (s := s.laneFreed) rfl hq)

/-- With no loopback running the arbitration is made, and in TRAIN, where it grants nothing, the word begins. -/
theorem State.freeLane_open {s : State} (h : s.lnk.suspended = false) : s.freeLane =
    if s.laneFreed.arbitrate.lnk.u0 = .idle ∧ s.lnk.state = .train then
      s.laneFreed.arbitrate.setLnk { s.laneFreed.arbitrate.lnk with
        u0 := .abilityWord ⟨true, true, 4, true, s.lnk.sentRequest, s.lnk.sentUser⟩ (s.osc + 192) }
    else s.laneFreed.arbitrate := by
  have hstate : s.laneFreed.arbitrate.lnk.state = s.lnk.state := by
    rw [arbitrate_lnk]
    rfl
  have hword : s.laneFreed.arbitrate.lnk.ownWord = ⟨true, true, 4, true, s.lnk.sentRequest, s.lnk.sentUser⟩ := by
    rw [arbitrate_lnk]
    rfl
  have hosc : s.laneFreed.arbitrate.osc = s.osc := (State.arbitrate_only _).osc
  have hs : ¬ s.laneFreed.lnk.suspended = true := by
    show ¬ s.lnk.suspended = true
    rw [h]
    decide
  refine (if_neg hs).trans ?_
  show (if s.laneFreed.arbitrate.lnk.u0 = .idle ∧ s.laneFreed.arbitrate.lnk.state = .train then
    s.laneFreed.arbitrate.sendWord else s.laneFreed.arbitrate) = _
  unfold State.sendWord
  rw [hstate, hword, hosc]

/-- Settles O47. -/
theorem loopbackArmsRunsEnds : Obligations.LoopbackArmsRunsEnds := by
  refine ⟨fun tag d s h => ?_, fun l osc => ?_, fun s ends hp h => exec_loopbackTimerExpiry hp h,
    fun s f arrived sent hp h => ?_⟩
  · rw [exec_linkLoopback]
    exact ⟨fun hs hl => State.immediate_answers h (linkLoopback_arms (s := s.popRequest) hs hl) rfl,
      fun hb => State.immediate_refused h (linkLoopback_busy (s := s.popRequest) hb),
      fun hq => State.immediate_refused h (linkLoopback_state (s := s.popRequest) hq)⟩
  · intro ended
    refine ⟨fun f ends hu hle => Lnk.endLoopback_eq ?_, fun hl => Lnk.endLoopback_eq ?_⟩
    · rw [hu, U0.justArrived_echo, decide_eq_true hle]
      rfl
    · cases hu : l.u0 with
      | echo f arrived ends =>
        rw [U0.justArrived_echo]
        cases arrived with
        | false => rfl
        | true => exact decide_eq_false (Nat.not_le.mpr (hl f ends hu))
      | _ => rfl
  · intro u counted
    have he := exec_echoTransmissionComplete hp h
    refine ⟨fun hs hq => ?_, fun g rest hs hq => ?_, fun hs => ?_⟩
    · exact he.trans (congrArg Host.Outcome.next
        (State.freeLane_noEcho (s := u.setLnk { s.lnk with counters := counted }) hs hq))
    · exact he.trans (congrArg Host.Outcome.next
        (State.freeLane_nextEcho (s := u.setLnk { s.lnk with counters := counted }) hs hq))
    · intro t
      rw [State.freeLane_open (by exact hs)] at he
      refine ⟨fun hn => ?_, fun hs hi => ?_⟩
      · rw [if_neg] at he
        · exact he
        · rintro ⟨h1, h2⟩
          exact hn.elim (fun hn => hn h2) fun hn => hn h1
      · rw [if_pos ⟨hi, hs⟩] at he
        exact he

end Sys2Proof.Machine
end

section
/-! A quality window's end (8.4): grades, low windows, the fallback. -/

namespace Sys2Proof.Machine

/-- A figure of the link that does not hang on U0 stays while messages move. -/
theorem OnlyMessages.lnkFigure {s t : State} (h : OnlyMessages s t) {α : Type} (f : Lnk → α)
    (hf : ∀ (l : Lnk) (u : U0), f { l with u0 := u } = f l) : f t.lnk = f s.lnk := by
  rw [h.lnk]
  exact hf _ _

/-! ## Grades (R139, R140) -/

theorem energyOf_eq (e : Energies) (i : Lane) : energyOf e i = ([e.d0, e.d1, e.d2, e.d3][i.val]!).toNat := by
  fin_cases i <;> rfl

theorem thresholdsBelow_eq (q : QualitySettings) (n h : Nat) : thresholdsBelow q n h =
    (q.thresholds.toList.filter fun x => decide (n + h < x)).length := List.countP_eq_length_filter

theorem gradeAfter_falls {q : QualitySettings} {g n : Nat} (h : thresholdsBelow q n 0 ≤ g) :
    gradeAfter q g n = thresholdsBelow q n 0 := if_pos h

theorem gradeAfter_rises {q : QualitySettings} {g n : Nat} (h : g < thresholdsBelow q n 0) :
    gradeAfter q g n = max g (thresholdsBelow q n q.hysteresis) := if_neg (Nat.not_le.mpr h)

theorem vector_ofFn_fin {α : Type} {n : Nat} (f : Fin n → α) (i : Fin n) : (Vector.ofFn f)[i] = f i :=
  Vector.getElem_ofFn i.isLt

section grade
variable (l : Lnk) (e : Energies) (i : Lane)

theorem Lnk.grade_grades : (l.grade e).grades[i] =
    if l.active[i] = true then gradeAfter l.quality l.grades[i] (energyOf e i) else l.grades[i] :=
  vector_ofFn_fin _ i

theorem Lnk.grade_worst : (l.grade e).worst[i] =
    if l.active[i] = true then min l.worst[i] (l.grade e).grades[i] else l.worst[i] :=
  vector_ofFn_fin _ i

end grade

/-- The smallest of some grades, 7 where there is none, is within a bound below 7 where one of them is. -/
theorem foldr_min_le_iff {α : Type} (a : α → Bool) (g : α → Nat) {n : Nat} (h : n < 7) (l : List α) :
    l.foldr (fun i m => if a i = true then min (g i) m else m) 7 ≤ n ↔ ∃ i ∈ l, a i = true ∧ g i ≤ n := by
  induction l with
  | nil => simp only [List.foldr_nil, List.not_mem_nil, false_and, exists_false, iff_false]; omega
  | cons i l ih =>
    rw [List.foldr_cons, List.exists_mem_cons_iff, ← ih]
    by_cases ha : a i = true
    · rw [if_pos ha, min_le_iff]
      simp only [ha, true_and]
    · rw [if_neg ha]
      simp only [ha, false_and, false_or, Bool.false_eq_true]

theorem Lnk.linkGrade_le_iff (l : Lnk) {n : Nat} (h : n < 7) :
    l.linkGrade ≤ n ↔ ∃ i : Lane, l.active[i] = true ∧ l.grades[i] ≤ n := by
  refine (foldr_min_le_iff (fun i : Lane => l.active[i]) (fun i : Lane => l.grades[i]) h [0, 1, 2, 3]).trans ?_
  refine ⟨fun ⟨i, _, hi⟩ => ⟨i, hi⟩, fun ⟨i, hi⟩ => ⟨i, ?_, hi⟩⟩
  fin_cases i <;> decide

/-! ## The window's end -/

theorem exec_qualityWindowEnd {s : State} {ends : Nat} (e : Energies) (cut : Bool) (hp : s.powered = true)
    (hs : s.lnk.state = .up) (hw : s.lnk.windowEnd = some ends) :
    exec (.qualityWindowEnd e cut) s = .next ((s.advanceTo ends).judgeWindow e cut ends) := by
  have he : exec (.qualityWindowEnd e cut) s = execQualityWindowEnd e cut s := rfl
  rw [he, execQualityWindowEnd, State.live_powered hp]
  simp only [hs, hw]

/-- The state with the window judged, a fallback not yet taken. -/
def State.graded (s : State) (e : Energies) (ends : Nat) : State :=
  if 4 ≤ s.lnk.crcTally then (s.setLnk (s.lnk.windowEnds e ends)).withBits bitLink
  else s.setLnk (s.lnk.windowEnds e ends)

/-- The judgement as the model makes it, its messages moved. -/
def State.gradedSent (s : State) (e : Energies) (ends : Nat) : State :=
  if 4 ≤ s.lnk.crcTally then (s.setLnk (s.lnk.windowEnds e ends)).setSummary bitLink
  else s.setLnk (s.lnk.windowEnds e ends)

section judgeWindow
variable (s : State) (e : Energies) (ends : Nat)

theorem State.gradedSent_only : OnlyMessages (s.graded e ends) (s.gradedSent e ends) := by
  unfold State.graded State.gradedSent
  split
  · exact State.setSummary_only _ _
  · exact .refl _

theorem State.graded_lnk : (s.graded e ends).lnk = s.lnk.windowEnds e ends := by
  unfold State.graded
  split <;> rfl

theorem State.gradedSent_figure {α : Type} (f : Lnk → α) (hf : ∀ (l : Lnk) (u : U0), f { l with u0 := u } = f l) :
    f (s.gradedSent e ends).lnk = f (s.lnk.windowEnds e ends) := by
  rw [(s.gradedSent_only e ends).lnkFigure f hf, State.graded_lnk]

/-- The fourth low window at FULL. -/
def State.fallsBack : Prop := s.lnk.rate = some .full ∧ (s.lnk.windowEnds e ends).lowWindows = 4

variable {s e ends}

theorem State.judgeWindow_falls (cut : Bool) (h : s.fallsBack e ends) :
    s.judgeWindow e cut ends = (s.gradedSent e ends).enterRecover .half cut :=
  if_pos ⟨(s.gradedSent_figure e ends Lnk.rate fun _ _ => rfl).trans h.1,
    (s.gradedSent_figure e ends Lnk.lowWindows fun _ _ => rfl).trans h.2⟩

theorem State.judgeWindow_stays (cut : Bool) (h : ¬ s.fallsBack e ends) :
    s.judgeWindow e cut ends = s.gradedSent e ends :=
  if_neg fun hc => h ⟨(s.gradedSent_figure e ends Lnk.rate fun _ _ => rfl).symm.trans hc.1,
    (s.gradedSent_figure e ends Lnk.lowWindows fun _ _ => rfl).symm.trans hc.2⟩

/-- A figure that entry to RECOVER does not move is the one that the window's end gave. -/
theorem State.judgeWindow_figure (cut : Bool) {α : Type} (f : Lnk → α)
    (hf : ∀ (l : Lnk) (u : U0), f { l with u0 := u } = f l)
    (hr : ∀ (l : Lnk) (r : LaneRate) (osc : Nat), f (l.enterRecover r cut osc) = f l) :
    f (s.judgeWindow e cut ends).lnk = f (s.lnk.windowEnds e ends) := by
  by_cases h : s.fallsBack e ends
  · rw [State.judgeWindow_falls cut h, (State.enterRecover_only _ _ _).lnkFigure f hf]
    exact (hr _ _ _).trans (s.gradedSent_figure e ends f hf)
  · rw [State.judgeWindow_stays cut h]
    exact s.gradedSent_figure e ends f hf

/-- The messages and the blocks beside the link after a window's end. -/
theorem State.judgeWindow_beside (cut : Bool) : Beside (s.graded e ends) (s.judgeWindow e cut ends) ∧
    (s.judgeWindow e cut ends).smp = s.smp := by
  have hg := s.gradedSent_only e ends
  have hsmp : (s.graded e ends).smp = s.smp := by
    unfold State.graded
    split <;> rfl
  by_cases h : s.fallsBack e ends
  · rw [State.judgeWindow_falls cut h]
    have hr := State.enterRecover_only (s.gradedSent e ends) .half cut
    refine ⟨?_, hr.smp.trans (hg.smp.trans hsmp)⟩
    have h1 := hr.beside
    have h2 := hg.beside
    exact ⟨h1.osc.trans h2.osc, h1.tas.trans h2.tas, h1.ori.trans h2.ori, h1.fri.trans h2.fri, h1.sco.trans h2.sco,
      h1.pmg.trans h2.pmg, h1.cfl.trans h2.cfl, h1.cst.trans h2.cst, h1.summary.trans h2.summary⟩
  · rw [State.judgeWindow_stays cut h]
    exact ⟨hg.beside, hg.smp.trans hsmp⟩

theorem State.graded_frame : (s.graded e ends).tas = s.tas ∧ (s.graded e ends).pmg = s.pmg ∧
    (s.graded e ends).cst = s.cst ∧ (s.graded e ends).cfl = s.cfl ∧ (s.graded e ends).fri = s.fri := by
  unfold State.graded
  split <;> exact ⟨rfl, rfl, rfl, rfl, rfl⟩

end judgeWindow

/-- Settles O45. The figures that entry to RECOVER leaves come from the window's end (`judgeWindow_figure`); the
fallback decides the others. -/
theorem windowEndGradesLanes : Obligations.WindowEndGradesLanes := by
  intro s e cut ends hp hs hw q energy below
  let u := s.advanceTo ends
  let t := u.judgeWindow e cut ends
  have hbelow : ∀ i h, thresholdsBelow q (energyOf e i) h = below i h := fun i h => by
    rw [thresholdsBelow_eq, energyOf_eq]
  have hgrades : ∀ i : Lane, t.lnk.grades[i] = (s.lnk.grade e).grades[i] := fun i =>
    State.judgeWindow_figure (s := u) cut (fun l => l.grades[i]) (fun _ _ => rfl) fun _ _ _ => rfl
  have hworst : ∀ i : Lane, t.lnk.worst[i] = (s.lnk.grade e).worst[i] := fun i =>
    State.judgeWindow_figure (s := u) cut (fun l => l.worst[i]) (fun _ _ => rfl) fun _ _ _ => rfl
  have hlow : t.lnk.lowWindows = if (s.lnk.grade e).linkGrade ≤ q.fallback then min 4 (s.lnk.lowWindows + 1) else 0 :=
    State.judgeWindow_figure (s := u) cut Lnk.lowWindows (fun _ _ => rfl) fun _ _ _ => rfl
  have hlatch : t.lnk.highErrorLatch = (s.lnk.highErrorLatch || decide (4 ≤ s.lnk.crcTally)) :=
    State.judgeWindow_figure (s := u) cut Lnk.highErrorLatch (fun _ _ => rfl) fun _ _ _ => rfl
  obtain ⟨hb, hsmp⟩ := State.judgeWindow_beside (s := u) (e := e) (ends := ends) cut
  obtain ⟨htas, hpmg, hcst, hcfl, hfri⟩ := State.graded_frame (s := u) (e := e) (ends := ends)
  have hfalls : u.fallsBack e ends ↔ s.lnk.rate = some .full ∧ t.lnk.lowWindows = 4 := by
    rw [hlow]
    exact Iff.rfl
  refine ⟨t, exec_qualityWindowEnd e cut hp hs hw, hb.tas.trans htas, fun i ha => ⟨fun h => ?_, fun h => ?_, ?_⟩,
    fun i ha => ⟨?_, ?_⟩, fun hq => ⟨fun h => ?_, fun h => ?_⟩, fun h => ⟨?_, ?_⟩, fun h => ⟨?_, ?_⟩, ?_, fun h => ?_,
    fun h => ?_, ?_, ?_, hb.pmg.trans hpmg, hb.cst.trans hcst, hb.cfl.trans hcfl, hb.fri.trans hfri, hsmp⟩
  · rw [← hbelow] at h ⊢
    rw [hgrades, Lnk.grade_grades, if_pos ha, gradeAfter_falls h]
  · rw [← hbelow] at h ⊢
    rw [hgrades, Lnk.grade_grades, if_pos ha, gradeAfter_rises h]
  · rw [hworst, Lnk.grade_worst, if_pos ha, hgrades]
  · rw [hgrades, Lnk.grade_grades, if_neg (by rw [ha]; decide)]
  · rw [hworst, Lnk.grade_worst, if_neg (by rw [ha]; decide)]
  · rw [hlow, if_pos]
    obtain ⟨i, ha, hi⟩ := h
    exact ((s.lnk.grade e).linkGrade_le_iff hq).mpr ⟨i, ha, hgrades i ▸ hi⟩
  · rw [hlow, if_neg]
    intro hc
    obtain ⟨i, ha, hi⟩ := ((s.lnk.grade e).linkGrade_le_iff hq).mp hc
    have := h i ha
    rw [hgrades] at this
    omega
  · rw [hlatch, decide_eq_true h, Bool.or_true]
  · rw [hb.summary]
    have hg : u.graded e ends = (u.setLnk (u.lnk.windowEnds e ends)).withBits bitLink := if_pos h
    rw [hg]
    exact and_or_self _ _
  · rw [hlatch, decide_eq_false (Nat.not_le.mpr h), Bool.or_false]
  · rw [hb.summary]
    have hg : u.graded e ends = u.setLnk (u.lnk.windowEnds e ends) := if_neg (Nat.not_le.mpr h)
    rw [hg]
    rfl
  · by_cases hf : u.fallsBack e ends
    · show (u.judgeWindow e cut ends).lnk.crcTally = 0
      rw [State.judgeWindow_falls cut hf]
      exact (State.enterRecover_only _ _ _).lnkFigure Lnk.crcTally fun _ _ => rfl
    · show (u.judgeWindow e cut ends).lnk.crcTally = 0
      rw [State.judgeWindow_stays cut hf]
      exact u.gradedSent_figure e ends Lnk.crcTally fun _ _ => rfl
  · have ht : t = (u.gradedSent e ends).enterRecover .half cut := State.judgeWindow_falls cut (hfalls.mpr h)
    have hr := State.enterRecover_only (u.gradedSent e ends) .half cut
    rw [ht]
    refine ⟨hr.lnkFigure Lnk.state fun _ _ => rfl, hr.lnkFigure Lnk.target fun _ _ => rfl,
      hr.lnkFigure Lnk.windowEnd fun _ _ => rfl, hr.lnkFigure Lnk.loopback fun _ _ => rfl,
      hr.lnkFigure Lnk.echoQueue fun _ _ => rfl, ?_⟩
    refine (hr.lnkFigure (fun l => l.counters.recoveries) fun _ _ => rfl).trans ?_
    exact congrArg satInc (u.gradedSent_figure e ends (fun l => l.counters.recoveries) fun _ _ => rfl)
  · have ht : t = u.gradedSent e ends := State.judgeWindow_stays cut fun hc => by
      obtain ⟨h1, h2⟩ := hfalls.mp hc
      exact h.elim (fun h => h h1) fun h => h h2
    rw [ht]
    have hg : ∀ {α : Type} (f : Lnk → α), (∀ (l : Lnk) (v : U0), f { l with u0 := v } = f l) →
        f (u.gradedSent e ends).lnk = f (u.lnk.windowEnds e ends) := fun f hf => u.gradedSent_figure e ends f hf
    exact ⟨(hg Lnk.state fun _ _ => rfl).trans hs, hg Lnk.windowEnd fun _ _ => rfl, hg Lnk.counters fun _ _ => rfl,
      hg Lnk.loopback fun _ _ => rfl, hg Lnk.echoQueue fun _ _ => rfl⟩
  · exact State.judgeWindow_figure (s := u) cut Lnk.active (fun _ _ => rfl) fun _ _ _ => rfl
  · exact State.judgeWindow_figure (s := u) cut Lnk.locked (fun _ _ => rfl) fun _ _ _ => rfl

end Sys2Proof.Machine
end

section
/-! Completions of TRAIN and RECOVER (8.2.1, 8.2.2), and Link Retrain (8.6). -/

namespace Sys2Proof.Machine

/-! ## The active set (R130, R133) -/

theorem vector_four {α : Type} (v : Vector α 4) : v = #v[v[0], v[1], v[2], v[3]] := by
  ext i hi
  interval_cases i <;> rfl

theorem laneSet_count_cases : ∀ a b c d : Bool, ∀ n ∈ [1, 2, 4], n ≤ countLanes #v[a, b, c, d] →
    (laneSet #v[a, b, c, d] n).toList.countP id = n := by decide

theorem laneSet_count {v : Vector Bool 4} {n : Nat} (hn : n ∈ [1, 2, 4]) (h : n ≤ countLanes v) :
    (laneSet v n).toList.countP id = n := by
  rw [vector_four v] at h ⊢
  exact laneSet_count_cases _ _ _ _ n hn h

theorem laneCount_mem (v : Vector Bool 4) (fig : Nat) : laneCount v fig ∈ [1, 2, 4] := by
  unfold laneCount
  split_ifs <;> decide

theorem laneCount_le {v : Vector Bool 4} (fig : Nat) (h : 1 ≤ countLanes v) : laneCount v fig ≤ countLanes v := by
  unfold laneCount
  split_ifs <;> omega

theorem countLanes_pos {v : Vector Bool 4} (h : v[0] = true) : 1 ≤ countLanes v :=
  List.countP_pos_iff.mpr ⟨true, Vector.mem_toList_iff.mpr (h ▸ Vector.getElem_mem (by decide)), rfl⟩

theorem laneSet_get (v : Vector Bool 4) (n : Nat) (i : Lane) :
    (laneSet v n)[i] = (v[i] && decide (lockedBelow v i < n)) := vector_ofFn_fin _ i

theorem laneSet_locked {v : Vector Bool 4} {n : Nat} {i : Lane} (h : (laneSet v n)[i] = true) : v[i] = true := by
  rw [laneSet_get, Bool.and_eq_true] at h
  exact h.1

theorem laneSet_zero {v : Vector Bool 4} {n : Nat} (h : v[0] = true) (hn : 0 < n) : (laneSet v n)[0] = true := by
  have hb : lockedBelow v 0 = 0 := by
    unfold lockedBelow
    rw [List.length_eq_zero_iff, List.filter_eq_nil_iff]
    intro j _
    simp
  refine (laneSet_get v n 0).trans ?_
  rw [hb, decide_eq_true hn, Bool.and_true]
  exact h

/-- The locked lanes below a lower lane are no more. -/
theorem lockedBelow_mono (v : Vector Bool 4) {i j : Lane} (h : j < i) : lockedBelow v j ≤ lockedBelow v i := by
  unfold lockedBelow
  rw [← List.countP_eq_length_filter, ← List.countP_eq_length_filter]
  refine List.countP_mono_left fun k _ hk => ?_
  rw [Bool.and_eq_true, decide_eq_true_eq] at hk ⊢
  exact ⟨hk.1.trans h, hk.2⟩

theorem laneSet_lower {v : Vector Bool 4} {n : Nat} {i j : Lane} (h : (laneSet v n)[i] = true) (hj : j < i)
    (hl : v[j] = true) : (laneSet v n)[j] = true := by
  rw [laneSet_get, Bool.and_eq_true, decide_eq_true_eq] at h ⊢
  exact ⟨hl, Nat.lt_of_le_of_lt (lockedBelow_mono v hj) h.2⟩

/-- The active set that a completion takes. -/
structure ActiveSet (locked active : Vector Bool 4) (n : Nat) : Prop where
  count : active.toList.countP id = if 4 ≤ n then 4 else if 2 ≤ n then 2 else 1
  zero : active[0] = true
  subset : ∀ i : Lane, active[i] = true → locked[i] = true
  lowest : ∀ i j : Lane, active[i] = true → j < i → locked[j] = true → active[j] = true

theorem laneSet_activeSet {v : Vector Bool 4} (fig : Nat) (h : v[0] = true) :
    ActiveSet v (laneSet v (laneCount v fig)) (min (v.toList.countP id) fig) := by
  refine ⟨laneSet_count (laneCount_mem v fig) (laneCount_le fig (countLanes_pos h)), laneSet_zero h ?_,
    fun i => laneSet_locked, fun i j => laneSet_lower⟩
  have := laneCount_mem v fig
  simp only [List.mem_cons, List.not_mem_nil, or_false] at this
  omega

/-! ## The rate (R133, R134) -/

theorem rateFor_full {w : HostWord} {r : LaneRate} (h : r = .full ∧ w.full = true ∨ r = .half ∧ w.half = false) :
    rateFor w r = .full := by
  unfold rateFor wordLists LaneRate.other
  rcases h with ⟨rfl, h⟩ | ⟨rfl, h⟩ <;> simp [h]

theorem rateFor_half {w : HostWord} {r : LaneRate} (h : r = .half ∧ w.half = true ∨ r = .full ∧ w.full = false) :
    rateFor w r = .half := by
  unfold rateFor wordLists LaneRate.other
  rcases h with ⟨rfl, h⟩ | ⟨rfl, h⟩ <;> simp [h]

/-- The link in UP with the lanes that are locked. -/
theorem Lnk.enterUp_grades (l : Lnk) (w : HostWord) (r : LaneRate) (now : Time) (osc : Nat) (i : Lane) :
    (l.enterUp w r now osc).grades[i] = if (l.enterUp w r now osc).active[i] = true then 7 else 0 :=
  Vector.getElem_map _ i.isLt

/-! ## Link reports -/

/-- The fields of a Link report. -/
def Lnk.reportFields (l : Lnk) (cause : Nat) : List Byte :=
  pack8 cause ++ pack8 (rateCode l.rate) ++ pack8 (countLanes l.active) ++ pack8 (laneSetCode l.active) ++
    pack8 (l.grantApplied.getD 0) ++ pack8 ((l.partner.map fun w => w.user.toNat).getD 0) ++ packTime l.latestUp

theorem State.linkReport_only (s : State) (cause : Nat) : OnlyMessages s (s.linkReport cause) :=
  State.reportIf_only _ _ _ _

theorem State.linkReport_new {s : State} (cause : Nat) (hon : s.mge.enables.link = true) :
    (s.linkReport cause).recent 1 ⟨.link, s.lnk.reportFields cause⟩ := by
  unfold State.linkReport
  rw [hon]
  exact State.handReport_new _ _ _

/-- LINK set and a Link report handed over, as every completion does. -/
theorem State.linked_new {s : State} (cause : Nat) (hon : s.mge.enables.link = true) :
    ((s.setSummary bitLink).linkReport cause).recent 1 ⟨.link, s.lnk.reportFields cause⟩ := by
  have hm := State.setSummary_only s bitLink
  have hf : (s.setSummary bitLink).lnk.reportFields cause = s.lnk.reportFields cause :=
    hm.lnkFigure (fun l => l.reportFields cause) fun _ _ => rfl
  rw [← hf]
  refine State.linkReport_new cause ?_
  rw [hm.mge]
  exact hon

theorem State.linked_only (s : State) (cause : Nat) :
    OnlyMessages (s.withBits bitLink) ((s.setSummary bitLink).linkReport cause) :=
  (State.setSummary_only _ _).trans (State.linkReport_only _ _)

/-! ## Completion of TRAIN -/

/-- The state with the lanes locked and a word held. -/
def State.trainReady (s : State) (locked : Vector Bool 4) (held : Option HostWord) : State :=
  s.setLnk { s.lnk with locked := locked, heldWord := held }

theorem wordHeld_figure (v : Vector Bool 4) (w : HostWord) :
    laneCount v (wordHeld w).lanes.toNat = laneCount v w.lanes.toNat := by
  have h4 : (4 : Byte).toNat = 4 := rfl
  unfold laneCount wordHeld
  by_cases h : 4 < w.lanes.toNat
  · simp only [if_pos h, h4]
    have e4 : 4 ≤ min (countLanes v) 4 ↔ 4 ≤ min (countLanes v) w.lanes.toNat := by omega
    have e2 : 2 ≤ min (countLanes v) 4 ↔ 2 ≤ min (countLanes v) w.lanes.toNat := by omega
    simp only [e4, e2]
  · simp only [if_neg h]

theorem State.tryComplete_train {s : State} {v : HostWord} (h0 : s.lnk.locked[0] = true) (hs : s.lnk.state = .train)
    (hw : s.lnk.heldWord = some v) : s.tryComplete = s.trainComplete v := by
  unfold State.tryComplete
  rw [if_pos h0]
  simp only [hs, hw]

/-- The state trained, its messages still to be formed. -/
def State.trained (s : State) (v : HostWord) : State :=
  (s.setLnk (s.lnk.train v s.tas.now s.osc)).setPmg
    { s.pmg with contract := max 8 (min 80 v.grant.toNat) * 250 }

theorem State.trainComplete_eq (s : State) (v : HostWord) :
    s.trainComplete v = ((s.trained v).setSummary bitLink).linkReport 1 := rfl

theorem State.hostWord_train {s : State} (w : HostWord) (h : s.lnk.state = .train) : s.hostWord w =
    if wordUsable w = true then (s.trainReady s.lnk.locked (some (wordHeld w))).tryComplete else s.protocolError := by
  unfold State.hostWord
  split
  · rfl
  · rename_i hr
    rw [h] at hr
    cases hr
  · rename_i hn _
    exact absurd h hn

theorem exec_hostAbilityWord_train {s : State} {w : HostWord} (hp : s.powered = true) (hs : s.lnk.state = .train)
    (h0 : s.lnk.locked[0] = true) (hu : wordUsable w = true) : exec (.hostAbilityWord w) s =
      .next ((s.trainReady s.lnk.locked (some (wordHeld w))).trainComplete (wordHeld w)) := by
  rw [exec_hostAbilityWord w hp, if_pos h0, State.hostWord_train w hs, if_pos hu]
  exact congrArg Host.Outcome.next (State.tryComplete_train (s := s.trainReady s.lnk.locked (some (wordHeld w)))
    h0 hs rfl)

theorem exec_hostAbilityWord_unusable {s : State} {w : HostWord} (hp : s.powered = true) (hs : s.lnk.state = .train)
    (h0 : s.lnk.locked[0] = true) (hu : wordUsable w = false) :
    exec (.hostAbilityWord w) s = .next s.protocolError := by
  rw [exec_hostAbilityWord w hp, if_pos h0, State.hostWord_train w hs, if_neg (by rw [hu]; decide)]

theorem wordUsable_iff (w : HostWord) : wordUsable w = true ↔ (w.half = true ∨ w.full = true) ∧ w.lanes ≠ 0 := by
  unfold wordUsable
  rw [Bool.and_eq_true, Bool.or_eq_true, decide_eq_true_eq]

theorem wordHeld_same {w : HostWord} (h : w.lanes.toNat ≤ 4) : wordHeld w = w := by
  unfold wordHeld
  rw [if_neg (Nat.not_lt.mpr h)]

theorem locked_set_zero {v : Vector Bool 4} {lane : Lane} (h : lane = 0 ∨ v[0] = true) : (v.set lane true)[0] = true := by
  by_cases hl : lane = 0
  · subst hl
    exact Vector.getElem_set_self _
  · rw [get_set_zero hl]
    exact h.resolve_left hl

/-- Settles O42. Both rows end in the same completion (`trainComplete`) of a state with the lanes locked and the
word held. -/
theorem trainingCompletes : Obligations.TrainingCompletes := by
  unfold Obligations.TrainingCompletes
  intro completes s w hp hs
  have done : ∀ (locked : Vector Bool 4) (held : Option HostWord), locked[0] = true →
      completes s ((s.trainReady locked held).trainComplete (wordHeld w)) locked w := fun locked held h0 => by
    let grant := max 8 (min 80 w.grant.toNat)
    let n := min (locked.toList.countP id) w.lanes.toNat
    let z := s.trainReady locked held
    let t := z.trainComplete (wordHeld w)
    have honly : OnlyMessages ((z.trained (wordHeld w)).withBits bitLink) t := State.linked_only _ 1
    have hlnk : t.lnk = { z.lnk.train (wordHeld w) s.tas.now s.osc with u0 := t.lnk.u0 } := honly.lnk
    have hact : t.lnk.active = laneSet locked (laneCount locked w.lanes.toNat) := by
      rw [hlnk, ← wordHeld_figure]
      rfl
    have hset : ActiveSet locked t.lnk.active n := by
      rw [hact]
      exact laneSet_activeSet _ h0
    have hrate : t.lnk.rate = some (rateFor w s.lnk.preferred) := by
      rw [hlnk]
      rfl
    have hgrades : ∀ i : Lane, t.lnk.grades[i] = if t.lnk.active[i] = true then 7 else 0 := fun i => by
      rw [hlnk]
      exact Lnk.enterUp_grades z.lnk (wordHeld w) s.lnk.preferred s.tas.now s.osc i
    have hworst : ∀ i : Lane, t.lnk.worst[i] = if t.lnk.active[i] = true then 7 else s.lnk.worst[i] := fun i => by
      rw [hlnk]
      exact vector_ofFn_fin _ i
    refine ⟨?_, ?_, fun h => by rw [hrate, rateFor_full h], fun h => by rw [hrate, rateFor_half h], hset.count,
      hset.zero, hset.subset, hset.lowest, hgrades, hworst, fun hon => ?_⟩
    · have hx : { t.lnk with u0 := s.lnk.u0 } = z.lnk.train (wordHeld w) s.tas.now s.osc := by
        rw [hlnk]
        rfl
      show OnlyMessages (((s.setLnk { t.lnk with u0 := s.lnk.u0 }).setPmg _).withBits bitLink) t
      rw [hx]
      exact honly
    · show t.lnk = { s.lnk with
        state := .up, locked := locked, rate := t.lnk.rate, active := t.lnk.active
        grades := t.lnk.grades, worst := t.lnk.worst, lowWindows := 0, crcTally := 0, limit := none
        heldWord := none, grantReceived := some w.grant.toNat, grantApplied := some grant
        partner := some (wordHeld w), latestUp := s.tas.now
        windowEnd := some (s.osc + s.lnk.quality.windowLength * 750), u0 := t.lnk.u0 }
      generalize t.lnk.u0 = v at hlnk
      rw [hlnk]
      rfl
    · have hr := (State.linked_new (s := z.trained (wordHeld w)) 1 hon).reported
      have hf : (z.trained (wordHeld w)).lnk.reportFields 1 = pack8 1 ++ pack8 (rateCode t.lnk.rate) ++
          pack8 (countLanes t.lnk.active) ++ pack8 (laneSetCode t.lnk.active) ++ pack8 grant ++
          pack8 w.user.toNat ++ packTime s.tas.now := by
        rw [hlnk]
        rfl
      rw [hf] at hr
      exact hr
  refine ⟨fun hu hl h0 => ?_, fun lane hu hl hle hw hlane => ?_, fun h0 hu => ?_⟩
  · exact ⟨_, exec_hostAbilityWord_train hp hs h0 ((wordUsable_iff w).mpr ⟨hu, hl⟩), done _ _ h0⟩
  · have h0 := locked_set_zero hlane
    have he := exec_laneWordLock lane hp
    rw [if_neg (by rw [hs]; decide), State.tryComplete_train (s := s.setLock lane true) h0 hs hw] at he
    have hd := done (s.lnk.locked.set lane true) s.lnk.heldWord h0
    rw [wordHeld_same hle] at hd
    exact ⟨_, he, hd⟩
  · refine exec_hostAbilityWord_unusable hp hs h0 (Bool.eq_false_iff.mpr fun hc => ?_)
    obtain ⟨h1, h2⟩ := (wordUsable_iff w).mp hc
    rcases hu with ⟨ha, hb⟩ | hu
    · rw [ha, hb] at h1
      exact h1.elim nofun nofun
    · exact h2 hu

end Sys2Proof.Machine
end

section
/-! Link Retrain (8.6) and the completion of a recovery (8.2.2). -/

namespace Sys2Proof.Machine

/-! ## Link Retrain -/

theorem exec_linkRetrain (tag : Byte) (ps : List Byte) (cut : Bool) (s : State) :
    exec (.linkRetrain tag ps cut) s = s.long 0x63 tag ps (linkRetrain cut) := rfl

theorem Lnk.mayRetrain_iff (l : Lnk) :
    l.mayRetrain = true ↔ l.state = .quiet ∨ (l.state = .up ∧ l.loopback = .none) := by
  unfold Lnk.mayRetrain
  rw [Bool.or_eq_true, Bool.and_eq_true, decide_eq_true_eq, decide_eq_true_eq, decide_eq_true_eq]

section linkRetrain
variable {b : Byte} {r : LaneRate} {cut : Bool} {s : State}

theorem linkRetrain_starts (hr : b = 1 ∧ r = .half ∨ b = 2 ∧ r = .full) (h : s.lnk.mayRetrain = true) :
    linkRetrain cut [b] s =
      .started .link ((s.setLnk { s.lnk with preferred := r }).enterRecover r cut) := by
  unfold linkRetrain
  rw [if_neg (by simp), field_one]
  rcases hr with ⟨rfl, rfl⟩ | ⟨rfl, rfl⟩
  · exact if_pos h
  · exact if_pos h

theorem linkRetrain_busy (hr : b = 1 ∧ r = .half ∨ b = 2 ∧ r = .full) (h : ¬ s.lnk.mayRetrain = true) :
    linkRetrain cut [b] s = .answered (s.refuse .busy) := by
  unfold linkRetrain
  rw [if_neg (by simp), field_one]
  rcases hr with ⟨rfl, rfl⟩ | ⟨rfl, rfl⟩
  · exact if_neg h
  · exact if_neg h

theorem linkRetrain_range (h1 : b ≠ 1) (h2 : b ≠ 2) : linkRetrain cut [b] s = .answered (s.refuse .range) := by
  have hn : laneRateOfCode b.toNat = none := by
    unfold laneRateOfCode
    split
    · rename_i h
      exact absurd (BitVec.eq_of_toNat_eq h) h1
    · rename_i h
      exact absurd (BitVec.eq_of_toNat_eq h) h2
    · rfl
  unfold linkRetrain
  rw [if_neg (by simp), field_one]
  simp only [hn]

end linkRetrain

/-- The link in RECOVER at the rate a Link Retrain names. -/
def Lnk.retrained (l : Lnk) (r : LaneRate) (cut : Bool) (osc : Nat) : Lnk :=
  { l.endLoopback osc with
    state := .recover, preferred := r, target := r, wordArrived := false, limit := some (osc + ms 10)
    windowEnd := none, crcTally := 0
    counters := { (l.endLoopback osc).counters with
      recoveries := satInc l.counters.recoveries
      malformed := if cut = true ∧ l.state = .up then satInc l.counters.malformed else l.counters.malformed } }

theorem Lnk.retrained_eq (l : Lnk) (r : LaneRate) (cut : Bool) (osc : Nat) :
    ({ l with preferred := r } : Lnk).enterRecover r cut osc = l.retrained r cut osc :=
  (Lnk.enterRecover_eq _ r cut osc).trans rfl

theorem State.retrained_only (s : State) (r : LaneRate) (cut : Bool) :
    OnlyMessages (s.setLnk (s.lnk.retrained r cut s.osc))
      ((s.setLnk { s.lnk with preferred := r }).enterRecover r cut) := by
  have h := State.enterRecover_only (s.setLnk { s.lnk with preferred := r }) r cut
  have hl : (s.setLnk { s.lnk with preferred := r }).lnk.enterRecover r cut s.osc = s.lnk.retrained r cut s.osc :=
    Lnk.retrained_eq _ r cut s.osc
  have ho : (s.setLnk { s.lnk with preferred := r }).osc = s.osc := rfl
  rw [ho, hl] at h
  exact h

/-! ## The completion of RECOVER -/

theorem State.tryComplete_recover {s : State} {v : HostWord} (h0 : s.lnk.locked[0] = true)
    (hs : s.lnk.state = .recover) (ha : s.lnk.wordArrived = true) (hw : s.lnk.partner = some v) :
    s.tryComplete = s.recoverComplete v := by
  unfold State.tryComplete
  rw [if_pos h0]
  simp only [hs, ha, hw]

/-- The state with the lanes locked and a word arrived. -/
def State.recoverReady (s : State) (locked : Vector Bool 4) : State :=
  s.setLnk { s.lnk with locked := locked, wordArrived := true }

theorem State.hostWord_recover {s : State} (w : HostWord) (h : s.lnk.state = .recover) :
    s.hostWord w = (s.recoverReady s.lnk.locked).tryComplete := by
  unfold State.hostWord
  split
  · rename_i ht
    rw [h] at ht
    cases ht
  · rfl
  · rename_i hn
    exact absurd h hn

theorem State.recoverReady_answered {s t : State} {locked : Vector Bool 4} {k tag : Byte} {st : Status}
    {f : List Byte} (h : Answered (s.recoverReady locked) t k tag st f) : Answered s t k tag st f := h

/-- The state recovered, its messages still to be formed. -/
def State.recovered (s : State) (v : HostWord) : State :=
  s.setLnk { s.lnk.enterUp v s.lnk.target s.tas.now s.osc with wordArrived := false }

/-- The recovery reported, the request that waits for it still to be answered. -/
def State.recoverSent (s : State) (v : HostWord) : State := ((s.recovered v).setSummary bitLink).linkReport 2

section recoverComplete
variable (s : State) (v : HostWord)

theorem State.recoverComplete_eq : s.recoverComplete v =
    (s.recoverSent v).finish InProgress.holdsLink .done retrainFields := rfl

theorem State.recoverSent_only : OnlyMessages ((s.recovered v).withBits bitLink) (s.recoverSent v) :=
  State.linked_only _ 2

theorem State.recoverSent_serial : (s.recoverSent v).mge.nextSerial = s.mge.nextSerial :=
  (State.reportIf_serial _ _ _ _).trans ((State.setSummary_serial _ _).trans rfl)

theorem holdsLink_not (e : InProgress) : (!e.holdsLink) = decide (e.resource ≠ .link) := decide_not.symm

theorem State.recoverComplete_only : OnlyMessages (((s.recovered v).setMge { s.mge with
    inProgress := s.mge.inProgress.filter fun e => decide (e.resource ≠ .link) }).withBits bitLink)
    (s.recoverComplete v) := by
  rw [State.recoverComplete_eq]
  exact (s.recoverSent_only v).finish (List.filter_congr fun e _ => holdsLink_not e) .done retrainFields

theorem State.recoverComplete_recent {k : Nat} {r : Report} (h : (s.recoverSent v).recent k r) :
    (s.recoverComplete v).recent k r := by
  have hf : s.recoverComplete v = ((s.recoverSent v).setMge { (s.recoverSent v).mge with
      inProgress := (s.recoverSent v).mge.inProgress.filter fun p => !p.holdsLink }).formReplies .done retrainFields
        ((s.recoverSent v).mge.inProgress.filter InProgress.holdsLink) := rfl
  rw [hf]
  refine State.formReplies_recent _ ?_
  exact h

theorem State.recoverSent_inProgress : (s.recoverSent v).mge.inProgress = s.mge.inProgress :=
  (s.recoverSent_only v).inProgress

/-- The fields of the reply are those of the link at the end. -/
theorem State.recoverComplete_fields : pack8 (rateCode (s.recoverSent v).lnk.rate) ++
    pack8 (countLanes (s.recoverSent v).lnk.active) ++ pack8 (laneSetCode (s.recoverSent v).lnk.active) =
    pack8 (rateCode (s.recoverComplete v).lnk.rate) ++ pack8 (countLanes (s.recoverComplete v).lnk.active) ++
      pack8 (laneSetCode (s.recoverComplete v).lnk.active) := by
  have h1 := fun {α : Type} (f : Lnk → α) hf => (s.recoverSent_only v).lnkFigure f hf
  have h2 := fun {α : Type} (f : Lnk → α) hf => (s.recoverComplete_only v).lnkFigure f hf
  rw [h1 Lnk.rate fun _ _ => rfl, h1 Lnk.active fun _ _ => rfl, h2 Lnk.rate fun _ _ => rfl,
    h2 Lnk.active fun _ _ => rfl]
  rfl

variable {s v}

theorem State.recoverComplete_answers {tag : Byte} (h : s.mge.inProgress = [⟨0x63, tag, .link⟩]) :
    Answered s (s.recoverComplete v) 0x63 tag .done (pack8 (rateCode (s.recoverComplete v).lnk.rate) ++
      pack8 (countLanes (s.recoverComplete v).lnk.active) ++
      pack8 (laneSetCode (s.recoverComplete v).lnk.active)) := by
  have hl : (s.recoverSent v).mge.inProgress.filter InProgress.holdsLink = [⟨0x63, tag, .link⟩] := by
    rw [State.recoverSent_inProgress, h]
    rfl
  have ha := State.finish_answered .done retrainFields hl
  unfold Answered at ha ⊢
  rw [State.recoverSent_serial] at ha
  rw [← State.recoverComplete_fields]
  exact ha

theorem State.recoverComplete_serial (h : ∀ e ∈ s.mge.inProgress, e.resource ≠ .link) :
    (s.recoverComplete v).mge.nextSerial = s.mge.nextSerial := by
  rw [State.recoverComplete_eq, State.finish_none, State.recoverSent_serial]
  intro e he
  rw [State.recoverSent_inProgress] at he
  exact decide_eq_false (h e he)

end recoverComplete

/-- Settles O46. Both rows end in the same completion (`recoverComplete`) of a state with the lanes locked and a
word arrived. -/
theorem linkRetrainRecovers : Obligations.LinkRetrainRecovers := by
  unfold Obligations.LinkRetrainRecovers
  refine ⟨fun tag b cut r s h hr => ?_, fun tag b cut s h h1 h2 => ?_, ?_⟩
  · intro may ended
    rw [exec_linkRetrain]
    have hmay : s.popRequest.lnk.mayRetrain = true ↔ may := Lnk.mayRetrain_iff _
    refine ⟨fun hm => ?_, fun hm => ?_⟩
    · have ha := linkRetrain_starts (s := s.popRequest) (cut := cut) hr (hmay.mpr hm)
      have honly := State.retrained_only s.popRequest r cut
      have hin : ((s.popRequest.setLnk { s.lnk with preferred := r }).enterRecover r cut).mge.inProgress =
          s.mge.inProgress := honly.inProgress
      have he := State.long_starts_joins h ha hin
      exact ⟨_, he, honly.setInProgress (s.mge.inProgress ++ [(⟨0x63, tag, .link⟩ : InProgress)])⟩
    · exact State.long_refused h (linkRetrain_busy (s := s.popRequest) hr fun hc => hm (hmay.mp hc))
  · rw [exec_linkRetrain]
    exact State.long_refused h (linkRetrain_range (s := s.popRequest) h1 h2)
  · intro recovers s v hp hs hv hu hl
    have done : ∀ locked : Vector Bool 4, locked[0] = true →
        recovers s ((s.recoverReady locked).recoverComplete v) locked v := fun locked h0 => by
      let n := min (locked.toList.countP id) v.lanes.toNat
      let z := s.recoverReady locked
      let t := z.recoverComplete v
      have honly := z.recoverComplete_only v
      have hlnk : t.lnk = { (z.recovered v).lnk with u0 := t.lnk.u0 } := honly.lnk
      have hact : t.lnk.active = laneSet locked (laneCount locked v.lanes.toNat) := by
        rw [hlnk]
        rfl
      have hset : ActiveSet locked t.lnk.active n := by
        rw [hact]
        exact laneSet_activeSet _ h0
      have hrate : t.lnk.rate = some (rateFor v s.lnk.target) := by
        rw [hlnk]
        rfl
      have hgrades : ∀ i : Lane, t.lnk.grades[i] = if t.lnk.active[i] = true then 7 else 0 := fun i => by
        rw [hlnk]
        exact Lnk.enterUp_grades z.lnk v s.lnk.target s.tas.now s.osc i
      refine ⟨?_, ?_, fun h => by rw [hrate, rateFor_full h], fun h => by rw [hrate, rateFor_half h], hset.count,
        hset.zero, hset.subset, hset.lowest, hgrades, fun hon => ?_, fun tag hin => ?_,
        fun hin => State.recoverComplete_serial (s := z) (v := v) hin⟩
      · have hx : { t.lnk with u0 := s.lnk.u0 } = (z.recovered v).lnk := by
          rw [hlnk]
          rfl
        show OnlyMessages (((s.setLnk { t.lnk with u0 := s.lnk.u0 }).setMge _).withBits bitLink) t
        rw [hx]
        exact honly
      · show t.lnk = { s.lnk with
          state := .up, locked := locked, rate := t.lnk.rate, active := t.lnk.active, grades := t.lnk.grades
          wordArrived := false, lowWindows := 0, crcTally := 0, limit := none, latestUp := s.tas.now
          windowEnd := some (s.osc + s.lnk.quality.windowLength * 750), u0 := t.lnk.u0 }
        generalize t.lnk.u0 = x at hlnk
        rw [hlnk]
        rfl
      · have hr := (z.recoverComplete_recent v (State.linked_new (s := z.recovered v) 2 hon)).reported
        have hf : (z.recovered v).lnk.reportFields 2 = pack8 2 ++ (pack8 (rateCode t.lnk.rate) ++
            pack8 (countLanes t.lnk.active) ++ pack8 (laneSetCode t.lnk.active)) ++
            pack8 (s.lnk.grantApplied.getD 0) ++ pack8 v.user.toNat ++ packTime s.tas.now := by
          have hpartner : (z.recovered v).lnk.partner = some v := hv
          unfold Lnk.reportFields
          rw [hlnk, hpartner]
          simp only [List.append_assoc]
          rfl
        rw [hf] at hr
        exact hr
      · exact State.recoverReady_answered (State.recoverComplete_answers (s := z) (v := v) hin)
    refine ⟨fun w h0 => ?_, fun lane ha hlane => ?_⟩
    · have he := exec_hostAbilityWord w hp
      rw [if_pos h0, State.hostWord_recover w hs,
        State.tryComplete_recover (s := s.recoverReady s.lnk.locked) h0 hs rfl hv] at he
      exact ⟨_, he, done _ h0⟩
    · have h0 := locked_set_zero hlane
      have he := exec_laneWordLock lane hp
      rw [if_neg (by rw [hs]; decide), State.tryComplete_recover (s := s.setLock lane true) h0 hs ha hv] at he
      have hz : s.setLock lane true = s.recoverReady (s.lnk.locked.set lane true) := by
        unfold State.recoverReady
        rw [← ha]
        rfl
      rw [hz] at he
      exact ⟨_, he, done _ h0⟩

end Sys2Proof.Machine
end

section
/-! The requests of the Channel Filter, the Return Channel and the Message Engine (9.1.3, 9.3.2, 9.6, 10.3 to
10.5), and the attention that summary bits raise (R170). -/

namespace Sys2Proof.Machine

theorem exec_setChannelFilter (tag : Byte) (ps : List Byte) (s : State) :
    exec (.setChannelFilter tag ps) s = s.immediate 0x68 tag ps setChannelFilter := rfl
theorem exec_readChannelFilter (tag : Byte) (ps : List Byte) (s : State) :
    exec (.readChannelFilter tag ps) s = s.immediate 0x69 tag ps readChannelFilter := rfl
theorem exec_setReturnPriority (tag : Byte) (ps : List Byte) (s : State) :
    exec (.setReturnPriority tag ps) s = s.immediate 0x6A tag ps setReturnPriority := rfl
theorem exec_readReturnStatus (tag : Byte) (ps : List Byte) (s : State) :
    exec (.readReturnStatus tag ps) s = s.immediate 0x6B tag ps readReturnStatus := rfl
theorem exec_identify (tag : Byte) (ps : List Byte) (s : State) :
    exec (.identify tag ps) s = s.immediate 0x70 tag ps identify := rfl
theorem exec_readSummary (tag : Byte) (ps : List Byte) (s : State) :
    exec (.readSummary tag ps) s = s.immediate 0x71 tag ps readSummary := rfl
theorem exec_setAttentionEnable (tag : Byte) (ps : List Byte) (s : State) :
    exec (.setAttentionEnable tag ps) s = s.immediate 0x72 tag ps setAttentionEnable := rfl
theorem exec_setReportEnable (tag : Byte) (ps : List Byte) (s : State) :
    exec (.setReportEnable tag ps) s = s.immediate 0x73 tag ps setReportEnable := rfl

/-! ## Set Channel Filter (R152) -/

section setChannelFilter
variable {ps : List Byte} {s : State} (hl : ps.length = 7)
include hl

theorem setChannelFilter_entry {i : Fin 8} {e : FilterEntry} (hi : field ps 0 1 = i.val)
    (he : filterEntryOf (flagField ps 1) (field ps 2 2) (field ps 4 2) (field ps 6 1) = some e) :
    setChannelFilter ps s = if hasControl (s.cfl.entries.set i e) = true then
      ⟨.done, pack8 i.val ++ e.fields, s.setCfl { s.cfl with entries := s.cfl.entries.set i e }⟩
    else s.refuse .state := by
  obtain ⟨n, hn⟩ := i
  obtain rfl : field ps 0 1 = n := hi
  refine (if_neg (not_not.mpr hl)).trans ((dif_pos hn).trans ?_)
  rw [he]

theorem setChannelFilter_range (h : 7 < field ps 0 1 ∨
    filterEntryOf (flagField ps 1) (field ps 2 2) (field ps 4 2) (field ps 6 1) = none) :
    setChannelFilter ps s = s.refuse .range := by
  refine (if_neg (not_not.mpr hl)).trans ?_
  by_cases hn : field ps 0 1 < 8
  · rw [dif_pos hn, h.resolve_left (by omega)]
  · exact dif_neg hn

end setChannelFilter

theorem filterEntryOf_some {b : Bool} {v m n : Nat} {d : Destination} (hv : v ≤ 0xFFF) (hm : m ≤ 0xFFF)
    (hd : destinationOfCode n = some d) :
    filterEntryOf b v m n = some ⟨b, BitVec.ofNat 12 v, BitVec.ofNat 12 m, d, 0⟩ := by
  unfold filterEntryOf
  rw [if_pos ⟨hv, hm⟩, hd]
  rfl

theorem filterEntryOf_none {b : Bool} {v m n : Nat} (h : 0xFFF < v ∨ 0xFFF < m ∨ destinationOfCode n = none) :
    filterEntryOf b v m n = none := by
  unfold filterEntryOf
  by_cases hr : v ≤ 0xFFF ∧ m ≤ 0xFFF
  · rw [if_pos hr, (h.resolve_left (by omega)).resolve_left (by omega)]
    rfl
  · exact if_neg hr

/-- The reply's fields are those the request carries. -/
theorem FilterEntry.fields_ofNat {b : Bool} {v m : Nat} {d : Destination} (hv : v ≤ 0xFFF) (hm : m ≤ 0xFFF) :
    (⟨b, BitVec.ofNat 12 v, BitVec.ofNat 12 m, d, 0⟩ : FilterEntry).fields =
      packFlag b ++ pack16 v ++ pack16 m ++ pack8 d.code := by
  unfold FilterEntry.fields
  simp only [BitVec.toNat_ofNat]
  rw [Nat.mod_eq_of_lt (by omega), Nat.mod_eq_of_lt (by omega)]

/-! ## The Message Engine's settings (R158, R169) -/

theorem setReturnPriority_eq (a b c d : Byte) (s : State) : setReturnPriority [a, b, c, d] s =
    if 3 < a.toNat ∨ 3 < b.toNat ∨ 3 < c.toNat ∨ 3 < d.toNat then s.refuse .range
    else ⟨.done, [a, b, c, d], s.setRch { s.rch with priority := ⟨a.toNat, b.toNat, c.toNat, d.toNat⟩ }⟩ := by
  refine (if_neg (not_not.mpr rfl)).trans ?_
  have hany : ([a, b, c, d].any fun b => decide (3 < b.toNat)) = true ↔
      3 < a.toNat ∨ 3 < b.toNat ∨ 3 < c.toNat ∨ 3 < d.toNat := by simp
  simp only [hany]
  congr 3

theorem setReportEnable_sets (a b c d e f : Byte) (s : State) : setReportEnable [a, b, c, d, e, f] s =
    let on : ReportEnables := ⟨decide (a ≠ 0), decide (b ≠ 0), decide (c ≠ 0), decide (d ≠ 0), decide (e ≠ 0),
      decide (f ≠ 0)⟩
    ⟨.done, on.fields, s.setMge { s.mge with enables := on }⟩ := by
  refine (if_neg (not_not.mpr rfl)).trans ?_
  have hf : ∀ (x : Byte) (l : List Byte), flagField (x :: l) 0 = decide (x ≠ 0) := flagField_cons
  rw [← hf a [b, c, d, e, f], ← hf b [c, d, e, f], ← hf c [d, e, f], ← hf d [e, f], ← hf e [f], ← hf f []]
  rfl

/-- The summary and the outstanding flag are cleared in any case (R171). -/
theorem readSummary_clears (b : Byte) (s : State) : readSummary [b] s =
    let m := { s.mge with summary := 0, outstanding := false }
    ⟨.done, s.mge.fields, s.setMge (if b = 0 then m else { m with
      overruns := 0, protocolErrors := 0, malformed := 0, reportDrops := 0 })⟩ := by
  refine (if_neg (not_not.mpr rfl)).trans ?_
  by_cases hb : b = 0
  · subst hb
    rfl
  · simp only [(flagField_one b).mpr hb, if_neg hb, if_true]
    rfl

/-! ## Attention (R170) -/

theorem State.dropWaiting_outstanding (s : State) (c : ItemClass) :
    (s.dropWaiting c).mge.outstanding = s.mge.outstanding := by
  cases c <;> rfl

theorem State.placeUpTo_outstanding (n : Nat) (s : State) :
    (State.placeUpTo n s).mge.outstanding = s.mge.outstanding := by
  induction n generalizing s with
  | zero => rfl
  | succ n ih =>
    unfold State.placeUpTo
    split
    · rfl
    · rename_i t ht
      obtain ⟨i, c, y, -, -, -, rfl⟩ := State.placeOne_spec ht
      exact (ih _).trans (s.dropWaiting_outstanding c)

theorem State.place_outstanding (s : State) : s.place.mge.outstanding = s.mge.outstanding := by
  have hf : s.fill.mge.outstanding = s.mge.outstanding := by
    unfold State.fill
    split
    · exact s.placeUpTo_outstanding 4
    · rfl
  unfold State.place
  rcases s.fill.arbitrate_cases with h | ⟨i, y, -, -, h⟩ <;> rw [h]
  · exact hf
  · exact hf

theorem State.formReply_outstanding (s : State) (kind tag : Byte) (st : Status) (f : List Byte) :
    (s.formReply kind tag st f).mge.outstanding = s.mge.outstanding := State.place_outstanding _

/-- The bits set and an Attention report joined, the slots still to be filled. -/
def State.attended (s : State) (bits : BitVec 8) : State :=
  let m := { s.mge with summary := s.mge.summary ||| bits }
  s.setMge { m.makeRoom with
    outstanding := true
    reports := m.makeRoom.reports ++ [⟨.attention, pack8 m.summary.toNat ++ packTime s.tas.now⟩] }

section setSummary
variable {s : State} {bits : BitVec 8}

theorem State.setSummary_raises (h : bits &&& ~~~s.mge.summary &&& s.mge.mask ≠ 0 ∧ s.mge.outstanding = false) :
    s.setSummary bits = (s.attended bits).place := if_pos h

theorem State.setSummary_silent (h : ¬ (bits &&& ~~~s.mge.summary &&& s.mge.mask ≠ 0 ∧ s.mge.outstanding = false)) :
    s.setSummary bits = s.withBits bits := if_neg h

theorem State.setSummary_attention
    (h : bits &&& ~~~s.mge.summary &&& s.mge.mask ≠ 0 ∧ s.mge.outstanding = false) :
    Reported (s.setSummary bits) .attention (pack8 (s.mge.summary ||| bits).toNat ++ packTime s.tas.now) := by
  rw [State.setSummary_raises h]
  refine (State.place_recent (k := 1) (.inr ?_)).reported
  simp [State.attended]

end setSummary

/-- Settles O49. -/
theorem channelAndEngineRequests : Obligations.ChannelAndEngineRequests := by
  unfold Obligations.ChannelAndEngineRequests
  refine ⟨fun tag ps i d s h hl hi hv hm hd => ?_, fun tag ps s h hl hr => ?_, fun tag b s h => ?_,
    fun tag a b c d s h => ?_, fun tag b s h => ?_, fun tag s h => ?_, fun tag b s h => ?_, fun tag m s h => ?_,
    fun tag a b c d e f s h => ?_, fun bits s => ?_⟩
  · intro e es controlled
    rw [exec_setChannelFilter]
    have ha := setChannelFilter_entry (s := s.popRequest) hl hi (filterEntryOf_some hv hm hd)
    rw [FilterEntry.fields_ofNat hv hm] at ha
    have hc : hasControl es = true ↔ controlled := hasControl_iff es
    refine ⟨fun hon => ?_, fun hoff => ?_⟩
    · have hans := State.immediate_answers h (ha.trans (if_pos (hc.mpr hon))) rfl
      simp only [List.append_assoc] at hans ⊢
      exact hans
    · exact State.immediate_refused h (ha.trans (if_neg fun hx => hoff (hc.mp hx)))
  · rw [exec_setChannelFilter]
    exact State.immediate_refused h (setChannelFilter_range hl (hr.imp_right filterEntryOf_none))
  · rw [exec_readChannelFilter]
    exact State.immediate_cleared h s.popRequest.setCfl rfl (fun _ => rfl) (if_neg (by simp))
  · rw [exec_setReturnPriority]
    have ha := setReturnPriority_eq a b c d s.popRequest
    refine ⟨fun hr => ?_, fun hr => State.immediate_refused h (ha.trans (if_pos hr))⟩
    exact State.immediate_answers h (ha.trans (if_neg (by omega))) rfl
  · rw [exec_readReturnStatus]
    exact State.immediate_cleared h s.popRequest.setRch rfl (fun _ => rfl) (if_neg (by simp))
  · rw [exec_identify]
    exact State.immediate_answers (x := s.popRequest) h (if_neg (by simp)) rfl
  · intro m
    rw [exec_readSummary]
    have ha := readSummary_clears b s.popRequest
    have he := State.immediate_of_stands (owner := readSummary) h
    rw [ha] at he
    obtain ⟨t, ht, hm, hans⟩ := State.immediate_answers h ha (by split <;> rfl)
    refine ⟨t, ht, ?_, ?_, hans⟩
    · obtain rfl := Host.Outcome.next.inj (ht.symm.trans he)
      exact (State.formReply_outstanding _ _ _ _ _).trans (by split <;> rfl)
    · exact hm
  · rw [exec_setAttentionEnable]
    exact State.immediate_answers h (if_neg (by simp)) rfl
  · intro on
    rw [exec_setReportEnable]
    exact State.immediate_answers h (setReportEnable_sets a b c d e f s.popRequest) rfl
  · intro raises
    refine ⟨s.setSummary_only bits, fun hr => ⟨?_, State.setSummary_attention hr⟩, State.setSummary_silent⟩
    rw [State.setSummary_raises hr, State.place_outstanding]
    rfl

end Sys2Proof.Machine
end

section
/-! Function Clear (10.5): each row's clear at its own target, and the RANGE answer of every row. -/

namespace Sys2Proof.Machine

section clearRow
variable {s : State} {tag b : Byte} {effect : State → State}

/-- The row of a target, for a request that names it. -/
theorem State.clearRow_clears (h : Stands s 0x74 tag [b]) (h1 : 1 ≤ b.toNat) (h5 : b.toNat ≤ 5)
    (he : SameSerial s (effect s.popRequest)) : ∃ t, s.clearRow b.toNat effect tag [b] = .next t ∧
      OnlyMessages (effect s.popRequest) t ∧ Answered s t 0x74 tag .done (pack8 b.toNat) := by
  have hn : namesOther b.toNat [b] = false := by simp [namesOther]
  have ha : functionClear b.toNat effect [b] s.popRequest = ⟨.done, pack8 b.toNat, effect s.popRequest⟩ :=
    (if_neg (by simp)).trans (if_neg (by rw [field_one]; omega))
  rw [clearRow_eq hn]
  exact State.immediate_answers h ha he

/-- A code that names no target is refused by every row. -/
theorem State.clearRow_range (h : Stands s 0x74 tag [b]) (hb : b = 0 ∨ 5 < b.toNat) (own : Nat) :
    ∃ t, s.clearRow own effect tag [b] = .next t ∧ OnlyMessages s.popRequest t ∧
      Answered s t 0x74 tag .range [] := by
  have hr : field [b] 0 1 < 1 ∨ 5 < field [b] 0 1 := by
    rw [field_one]
    rcases hb with rfl | hb
    · exact .inl (by decide)
    · exact .inr hb
  have hn : namesOther own [b] = false := by
    have hne : ¬ (1 ≤ field [b] 0 1 ∧ field [b] 0 1 ≤ 5) := by omega
    unfold namesOther
    rw [Bool.and_assoc (decide _), ← Bool.decide_and, decide_eq_false hne]
    simp
  rw [clearRow_eq hn]
  exact State.immediate_refused h ((if_neg (by simp)).trans (if_pos hr))

end clearRow

/-- Only a SCANNING slot stays. -/
theorem Eye.clearPicture_slots (e : Eye) (i : Fin 3) :
    (e.slots[i].state = .scanning → e.clearPicture.slots[i] = e.slots[i]) ∧
    (e.slots[i].state ≠ .scanning → e.clearPicture.slots[i].state = .free) := by
  have hs : e.clearPicture.slots[i] = (e.freeStates [.filling, .complete]).slots[i] := rfl
  refine ⟨fun h => ?_, fun h => ?_⟩
  · rw [hs, Eye.freeStates_slot, h]
    rfl
  · rw [hs, Eye.freeStates_state]
    cases hst : e.slots[i].state with
    | free => rfl
    | filling => rfl
    | complete => rfl
    | scanning => exact absurd hst h

/-- Settles O50. -/
theorem functionClearsClearTheirArea : Obligations.FunctionClearsClearTheirArea := by
  refine fun tag s => ⟨fun h => ?_, fun h => ?_, fun h => ?_, fun h => ?_, fun h => ?_, fun b hb h c hc => ?_⟩
  · obtain ⟨t, ht, hm, ha⟩ :=
      State.clearRow_clears (effect := State.clearPicture) h (by decide) (by decide) rfl
    have hf : t.fri = s.fri.mapEyes Eye.clearPicture := hm.fri
    refine ⟨t, ht, ?_, ?_, fun q => ?_, ha⟩
    · rw [hf]
      exact hm
    · rw [hf]
      rfl
    · have hq : t.fri.eyes.get q = (s.fri.eyes.get q).clearPicture := by
        rw [hf]
        exact s.fri.mapEyes_get Eye.clearPicture q
      rw [hq]
      exact ⟨rfl, rfl, Eye.clearPicture_slots _⟩
  · exact State.clearRow_clears (effect := State.clearAudio) h (by decide) (by decide) rfl
  · exact State.clearRow_clears (effect := State.clearMotion) h (by decide) (by decide) rfl
  · exact State.clearRow_clears (effect := State.clearActions) h (by decide) (by decide) rfl
  · exact State.clearRow_clears (effect := State.clearCounters) h (by decide) (by decide) rfl
  · simp only [List.mem_cons, List.not_mem_nil, or_false] at hc
    rcases hc with rfl | rfl | rfl | rfl | rfl
    · exact State.clearRow_range h hb 1
    · exact State.clearRow_range h hb 2
    · exact State.clearRow_range h hb 3
    · exact State.clearRow_range h hb 4
    · exact State.clearRow_range h hb 5

end Sys2Proof.Machine
end

section
/-! The reception of a downstream frame (8.3, 9.1.1): the link's judgement, the route, the hand-over. -/

namespace Sys2Proof.Machine

theorem exec_downstreamFrameReception (bytes : List Byte) {s : State} (hp : s.powered = true) :
    exec (.downstreamFrameReception bytes) s = .next (if s.lnk.state = .up then s.receive bytes else s) := by
  have he : exec (.downstreamFrameReception bytes) s = execDownstreamFrameReception bytes s := rfl
  rw [he, execDownstreamFrameReception, State.live_powered hp]

/-! ## The link's judgement (R137) -/

section judgeFrame
variable {bytes : List Byte}

theorem judgeFrame_malformed (h : bytes.length < 4 ∨ field bytes 0 4 / 4096 = 0 ∨ 24576 < field bytes 0 4 / 4096 ∨
    bytes.length < field bytes 0 4 / 4096 + 8) : judgeFrame bytes = .malformed := if_pos h

section wellFormed
variable (h1 : 1 ≤ field bytes 0 4 / 4096) (h2 : field bytes 0 4 / 4096 ≤ 24576)
  (hl : bytes.length = field bytes 0 4 / 4096 + 8)
include h1 h2 hl

theorem judgeFrame_crcFailure (h : (crc32 (bytes.take (field bytes 0 4 / 4096 + 4))).toNat ≠
    field bytes (field bytes 0 4 / 4096 + 4) 4) : judgeFrame bytes = .crcFailure :=
  (if_neg (by unfold maxPayload; omega)).trans (if_pos h)

theorem judgeFrame_good (h : (crc32 (bytes.take (field bytes 0 4 / 4096 + 4))).toNat =
    field bytes (field bytes 0 4 / 4096 + 4) 4) : judgeFrame bytes =
      .good (BitVec.ofNat 12 (field bytes 0 4)) ((bytes.drop 4).take (field bytes 0 4 / 4096)) bytes := by
  refine ((if_neg (by unfold maxPayload; omega)).trans (if_neg (not_not.mpr h))).trans ?_
  rw [← hl, List.take_length]

end wellFormed

variable {s : State}

theorem State.receive_malformed (h : judgeFrame bytes = .malformed) :
    s.receive bytes = s.setLnk s.lnk.countMalformed := by
  unfold State.receive
  rw [h]

theorem State.receive_crcFailure (h : judgeFrame bytes = .crcFailure) :
    s.receive bytes = s.setLnk s.lnk.countCrc := by
  unfold State.receive
  rw [h]

theorem State.receive_good {c : BitVec 12} {payload frame : List Byte}
    (h : judgeFrame bytes = .good c payload frame) : s.receive bytes = s.goodFrame c payload frame := by
  unfold State.receive
  rw [h]

end judgeFrame

/-! ## The route (R150) -/

theorem Cfl.route_none {f : Cfl} {c : BitVec 12} (h : ∀ i : Fin 8, f.entries[i].hits? c = false) :
    f.route c = none := by
  cases hr : f.route c with
  | none => rfl
  | some i => exact absurd (Cfl.route_some.mp hr).1 (by rw [h i]; decide)

section goodFrame
variable {s : State} {c : BitVec 12} (payload frame : List Byte)

theorem State.goodFrame_unmatched (h : s.cfl.route c = none) : s.goodFrame c payload frame =
    (s.setLnk s.lnk.countGood).setCfl { s.cfl with unmatched := satInc s.cfl.unmatched } := by
  have ht : s.cfl.take c = ({ s.cfl with unmatched := satInc s.cfl.unmatched }, .discard) := by
    unfold Cfl.take
    rw [h]
  unfold State.goodFrame State.routed
  rw [ht]
  rfl

/-- The frame counted good, and with it the entry that matched. -/
def State.hit (s : State) (i : Fin 8) : State :=
  (s.setLnk { s.lnk with counters := { s.lnk.counters with good := satInc s.lnk.counters.good } }).setCfl { s.cfl with
    entries := s.cfl.entries.set i { s.cfl.entries[i] with hits := satInc s.cfl.entries[i].hits } }

theorem State.goodFrame_routed {i : Fin 8} (h : s.cfl.route c = some i) : s.goodFrame c payload frame =
    (s.hit i).handOver payload frame s.cfl.entries[i].dest := by
  unfold State.goodFrame State.routed
  rw [Cfl.take_some h]
  rfl

end goodFrame

/-! ## The hand-over to CONTROL (R146, R165) -/

section echo
variable {s : State} {frame : List Byte}

theorem State.echo_dropped (h : 4 ≤ s.lnk.echoQueue.length) : s.echo frame = s.setLnk { s.lnk with
    counters := { s.lnk.counters with echoDrops := satInc s.lnk.counters.echoDrops } } := if_pos h

theorem State.echo_queued (h : s.lnk.echoQueue.length < 4) (hu : s.lnk.u0 ≠ .idle) : s.echo frame =
    s.setLnk { s.lnk with echoQueue := s.lnk.echoQueue ++ [frame] } := by
  refine (if_neg (Nat.not_le.mpr h)).trans ((if_neg fun hc => hu hc.1).trans ?_)
  unfold State.sendEcho
  split
  · rename_i hi _
    exact absurd hi hu
  · rfl

theorem State.echo_sent (hq : s.lnk.echoQueue = []) (hu : s.lnk.u0 = .idle) : s.echo frame =
    s.setLnk { s.lnk with u0 := .echo frame true (s.osc + frame.length * 24) } :=
  (if_neg (by simp [hq])).trans (if_pos ⟨hu, hq⟩)

end echo

section controlMessage
variable {s : State} {payload : List Byte}

theorem State.controlMessage_malformed (h : payload.length < 6 ∨ field payload 4 2 ≠ payload.length - 6) :
    s.controlMessage payload = s.setMge { s.mge with malformed := satInc s.mge.malformed } := if_pos h

variable (h6 : 6 ≤ payload.length) (hl : field payload 4 2 = payload.length - 6)
include h6 hl

theorem State.controlMessage_version (h : payload.headD 0 ≠ 1) :
    s.controlMessage payload = s.setMge { s.mge with protocolErrors := satInc s.mge.protocolErrors } := by
  refine (if_neg (by omega)).trans (if_pos ?_)
  rw [field_headD]
  exact fun hc => h (BitVec.eq_of_toNat_eq hc)

theorem State.controlMessage_request (h : payload.headD 0 = 1) :
    s.controlMessage payload = s.enqueue ⟨payload.getD 1 0, payload.getD 2 0, payload.drop 6⟩ := by
  refine (if_neg (by omega)).trans (if_neg ?_)
  rw [field_headD, h]
  decide

end controlMessage

/-- Settles O40: judgement, route and hand-over, each by its own lemmas. -/
theorem frameReceptionOutcomes : Obligations.FrameReceptionOutcomes := by
  unfold Obligations.FrameReceptionOutcomes
  intro bytes s hp c len channel crc payload hits
  have he := exec_downstreamFrameReception bytes hp
  refine ⟨fun hs => he.trans (by rw [if_neg hs]), fun hs => ?_⟩
  rw [if_pos hs] at he
  refine ⟨fun hbad => ?_, fun h1 h2 hl => ⟨fun hcrc => ?_, fun hcrc => ?_⟩⟩
  · rw [State.receive_malformed (judgeFrame_malformed hbad)] at he
    exact he
  · rw [State.receive_crcFailure (judgeFrame_crcFailure h1 h2 hl hcrc)] at he
    exact he
  · have hmiss : ∀ e : FilterEntry, ¬ hits e → e.hits? channel = false := fun e hn =>
      Bool.not_eq_true _ ▸ fun hc => hn ((e.hits?_iff channel).mp hc)
    rw [State.receive_good (judgeFrame_good h1 h2 hl hcrc)] at he
    refine ⟨fun hn => ?_, fun i hi hlow => ?_⟩
    · exact he.trans (congrArg _ (State.goodFrame_unmatched _ _ (Cfl.route_none fun i => hmiss _ (hn i))))
    · have hr : s.cfl.route channel = some i :=
        Cfl.route_some.mpr ⟨(FilterEntry.hits?_iff _ _).mpr hi, fun j hj => hmiss _ (hlow j hj)⟩
      intro e h
      have hgo : ∀ d : Destination, e.dest = d → exec (.downstreamFrameReception bytes) s =
          .next (h.handOver payload bytes d) := fun d hd => by
        refine he.trans (congrArg _ ((State.goodFrame_routed _ _ hr).trans ?_))
        rw [← hd]
        rfl
      refine ⟨hgo _, hgo _, hgo _, hgo _, fun hd hsus => ?_, hgo _, fun hd hsus => ?_⟩
      · have hc : h.handOver payload bytes .control = h.echo bytes := if_pos hsus
        have hg := hgo _ hd
        rw [hc] at hg
        exact ⟨fun hq => hg.trans (congrArg _ (State.echo_dropped (s := h) hq)),
          fun hq hu => hg.trans (congrArg _ (State.echo_queued (s := h) hq hu)),
          fun hq hu => hg.trans (congrArg _ (State.echo_sent (s := h) hq hu))⟩
      · have hc : h.handOver payload bytes .control = h.controlMessage payload :=
          if_neg (by rw [show h.lnk.suspended = false from hsus]; decide)
        have hg := hgo _ hd
        rw [hc] at hg
        refine ⟨fun hm => hg.trans (congrArg _ (State.controlMessage_malformed hm)), fun h6 hpl => ⟨fun hv => ?_,
          fun hv => ?_⟩⟩
        · exact hg.trans (congrArg _ (State.controlMessage_version h6 hpl hv))
        · rw [State.controlMessage_request h6 hpl hv] at hg
          refine ⟨fun ha => hg.trans (congrArg _ (State.enqueue_admitted (s := h) ha _)), fun ha => ?_⟩
          rw [State.enqueue_overrun (s := h) ha] at hg
          exact ⟨_, hg, State.setSummary_only _ bitMsg⟩

end Sys2Proof.Machine
end

section
/-! The training and recovery limits (8.2.1, 8.2.2) and what an entry to DOWN empties (9.5, 10.6). -/

namespace Sys2Proof.Machine

theorem exec_trainingLimitExpiry {s : State} {ends : Nat} (hp : s.powered = true) (hl : s.lnk.limit = some ends)
    (hs : s.lnk.state = .train) : exec .trainingLimitExpiry s = .next (s.advanceTo ends).enterDown := by
  have he : exec .trainingLimitExpiry s = execTrainingLimitExpiry s := rfl
  rw [he, execTrainingLimitExpiry, State.live_powered hp]
  simp only [hs, hl]

theorem exec_recoveryLimitExpiry {s : State} {ends : Nat} (hp : s.powered = true) (hl : s.lnk.limit = some ends)
    (hs : s.lnk.state = .recover) : exec .recoveryLimitExpiry s = .next (s.advanceTo ends).enterDown := by
  have he : exec .recoveryLimitExpiry s = execRecoveryLimitExpiry s := rfl
  rw [he, execRecoveryLimitExpiry, State.live_powered hp]
  simp only [hs, hl]

/-! ## The flush of the Return Channel (R161) -/

theorem PerClass.get_countOne (p : PerClass Count) (d c : ItemClass) :
    (p.countOne d).get c = if d = c then satInc (p.get c) else p.get c := by
  cases d <;> cases c <;> rfl

/-- Items counted one by one are counted by their number in the class. -/
theorem PerClass.get_foldl_countOne (l : List ItemClass) (p : PerClass Count) (c : ItemClass) :
    (l.foldl PerClass.countOne p).get c = satAdd (p.get c) (l.count c) := by
  induction l generalizing p with
  | nil => rfl
  | cons d l ih =>
    rw [List.foldl_cons, ih, PerClass.get_countOne, List.count_cons]
    by_cases h : d = c
    · rw [if_pos h, if_pos (by simpa using h)]
      rfl
    · rw [if_neg h, if_neg (by simpa using h)]
      rfl

theorem Rch.holding_eq_count (r : Rch) (c : ItemClass) : r.holding c =
    (r.slots.toList.filterMap fun t => t.item.map Item.itemClass).count c := by
  unfold Rch.holding
  rw [List.count, List.countP_filterMap]
  refine List.countP_congr fun t _ => ?_
  cases h : t.item.map Item.itemClass with
  | none => simp
  | some d => simp

/-- Every item in a slot and the pending motion report are counted dropped. -/
theorem Rch.flush_dropped (r : Rch) (c : ItemClass) : r.flush.dropped.get c = satAdd (r.dropped.get c)
    (r.holding c + if c = .motion ∧ r.pendingMotion ≠ none then 1 else 0) := by
  have hp : (if r.pendingMotion.isSome then [ItemClass.motion] else []).count c =
      if c = .motion ∧ r.pendingMotion ≠ none then 1 else 0 := by
    cases r.pendingMotion with
    | none => simp
    | some x => cases c <;> simp
  refine (PerClass.get_foldl_countOne _ _ c).trans ?_
  rw [List.count_append, ← Rch.holding_eq_count, hp]

/-! ## The torn frame (R70) -/

theorem Eye.linkDown_cases (e : Eye) : (e.filling = none → e.linkDown = e) ∧
    ∀ i : Fin 3, e.filling = some i → e.linkDown = { e with
      slots := e.slots.set i { e.slots[i] with state := .free, nextLine := 0 }
      counters := { e.counters with torn := satInc e.counters.torn } } := by
  refine ⟨fun h => ?_, fun i h => ?_⟩
  · unfold Eye.linkDown
    rw [h]
  · unfold Eye.linkDown
    rw [h]
    rfl

theorem Fri.anyFilling_iff (f : Fri) :
    f.anyFilling = true ↔ ¬ (f.eyes.left.filling = none ∧ f.eyes.right.filling = none) := by
  unfold Fri.anyFilling
  rw [Bool.or_eq_true, Option.isSome_iff_ne_none, Option.isSome_iff_ne_none]
  tauto

theorem State.downBits_eq (s : State) : s.downBits = (if s.lnk.state = .recover then bitLink else 0) |||
    if s.fri.eyes.left.filling = none ∧ s.fri.eyes.right.filling = none then 0 else bitPicture := by
  unfold State.downBits
  congr 1
  rw [if_congr s.fri.anyFilling_iff rfl rfl]
  exact ite_not ..

/-! ## The entry to DOWN -/

/-- In DOWN an attention is the one report, none being placed. -/
theorem State.enterDown_emptied (s : State) : s.enterDown =
    let attention := s.downBits &&& ~~~s.mge.summary &&& s.mge.mask ≠ 0
    s.emptied.setMge { s.emptied.mge with
      summary := s.mge.summary ||| s.downBits, outstanding := decide attention
      reports := if attention
        then [⟨.attention, pack8 (s.mge.summary ||| s.downBits).toNat ++ packTime s.tas.now⟩] else [] } := by
  rw [State.enterDown_eq]
  by_cases h : s.downBits &&& ~~~s.mge.summary &&& s.mge.mask ≠ 0
  · rw [State.setSummary_raises (s := s.emptied) ⟨h, rfl⟩, State.place_down rfl]
    simp only [if_pos h, decide_eq_true h]
    rfl
  · rw [State.setSummary_silent (s := s.emptied) fun hc => h hc.1]
    simp only [if_neg h, decide_eq_false h]
    rfl

/-- Settles O43. Both rows are one entry to DOWN; of what it leaves, only the counts by class and the torn frames
take lemmas. -/
theorem limitsTakeLinkDown : Obligations.LimitsTakeLinkDown := by
  unfold Obligations.LimitsTakeLinkDown
  intro s ends hp hl u bits attention down
  have hb : u.downBits = bits := u.downBits_eq
  have hd : down u.enterDown := by
    rw [u.enterDown_emptied, hb]
    refine ⟨rfl, rfl, rfl, rfl, fun i => ?_, rfl, rfl, rfl, rfl, rfl, rfl, rfl, fun i => ?_, rfl, rfl, rfl, rfl,
      s.rch.flush_dropped, rfl, rfl, rfl, rfl, rfl, rfl, rfl, rfl, fun q => ?_, rfl, rfl, rfl, rfl, rfl, rfl, rfl⟩
    · fin_cases i <;> exact ⟨rfl, rfl, rfl⟩
    · fin_cases i <;> rfl
    · intro e
      have hq : (u.fri.mapEyes Eye.linkDown).eyes.get q = e.linkDown := u.fri.mapEyes_get Eye.linkDown q
      have hc := e.linkDown_cases
      rw [← hq] at hc
      exact hc
  have hlnk : u.enterDown.lnk = s.lnk.enterDown u.osc := by
    rw [u.enterDown_emptied]
    rfl
  refine ⟨fun hs => ⟨_, exec_trainingLimitExpiry hp hl hs, hd, ?_, ?_⟩,
    fun hs => ⟨_, exec_recoveryLimitExpiry hp hl hs, hd, ?_, ?_⟩⟩
  · rw [hlnk]
    show (s.lnk.downLatch || decide (s.lnk.state = .recover)) = _
    rw [hs]
    exact Bool.or_false _
  · rw [hlnk]
    exact if_pos hs
  · rw [hlnk]
    show (s.lnk.downLatch || decide (s.lnk.state = .recover)) = _
    rw [hs]
    exact Bool.or_true _
  · rw [hlnk]
    exact if_neg (by rw [hs]; decide)

end Sys2Proof.Machine
end

section
/-! Placement, supersede, arbitration and the end of an ability word (9.3.1, 9.3.2, 9.4, 8.3). -/

namespace Sys2Proof.Machine

/-! ## The first element of least value -/

/-- In a list in the order of a rank, the element taken is the one that no other undercuts, in value or, at the same
value, in rank. -/
theorem argMin_eq_some {α : Type} {f rank : α → Nat} {a : α} : ∀ {l : List α},
    l.Pairwise (fun x y => rank x < rank y) → a ∈ l →
    (∀ x ∈ l, f a < f x ∨ (f a = f x ∧ rank a ≤ rank x)) → argMin f l = some a
  | b :: l, hl, ha, hmin => by
    obtain ⟨hb, hl⟩ := List.pairwise_cons.mp hl
    unfold argMin
    rcases List.mem_cons.mp ha with rfl | ha
    · split
      · rfl
      · rename_i c hc
        have hmem := argMin_mem f hc
        have hle := hmin c (List.mem_cons_of_mem _ hmem)
        exact if_neg (by omega)
    · rw [argMin_eq_some hl ha fun x hx => hmin x (List.mem_cons_of_mem _ hx)]
      have hlt := hmin b List.mem_cons_self
      have := hb a ha
      exact if_pos (by omega)

/-! ## A fill (R156) -/

/-- A class's place in the order in which a fill breaks ties. -/
def ItemClass.fillRank : ItemClass → Nat
  | .reply => 0
  | .motion => 1
  | .capture => 2
  | .report => 3

theorem fillOrder_pairwise :
    [ItemClass.reply, .motion, .capture, .report].Pairwise fun x y => x.fillRank < y.fillRank := by decide

theorem State.placeable_iff (s : State) (c : ItemClass) :
    s.placeable c = true ↔ s.waiting c ≠ none ∧ s.rch.holding c < c.limit := by
  unfold State.placeable
  rw [Bool.and_eq_true, Option.isSome_iff_ne_none, decide_eq_true_eq]

theorem State.nextClass_eq_some {s : State} {c : ItemClass} (hc : s.placeable c = true)
    (hmin : ∀ d, s.placeable d = true → s.rch.priority.get c < s.rch.priority.get d ∨
      (s.rch.priority.get c = s.rch.priority.get d ∧ c.fillRank ≤ d.fillRank)) : s.nextClass = some c :=
  argMin_eq_some (fillOrder_pairwise.filter _) (List.mem_filter.mpr ⟨by cases c <;> simp, hc⟩)
    fun d hd => hmin d (List.of_mem_filter hd)

theorem Rch.emptySlot_eq_some {r : Rch} {i : Fin 4} (hi : r.slots[i] = .empty)
    (hlow : ∀ j : Fin 4, j < i → r.slots[j] ≠ .empty) : r.emptySlot = some i := by
  cases h : r.emptySlot with
  | none => exact absurd hi (Rch.emptySlot_none h i)
  | some k =>
    obtain ⟨hk, l, l', hl, hn⟩ := List.find?_eq_some_iff_append.mp h
    have hs : ([0, 1, 2, 3] : List (Fin 4)).Pairwise (· < ·) := by decide
    have hm : ∀ j : Fin 4, j ∈ ([0, 1, 2, 3] : List (Fin 4)) := by decide
    have him := hm i
    rw [hl, List.mem_append, List.mem_cons] at him
    rw [hl, List.pairwise_append] at hs
    obtain ⟨-, hkl, -⟩ := hs
    rcases him with him | rfl | him
    · exact absurd hi (by simpa using hn i him)
    · rfl
    · exact absurd (of_decide_eq_true hk) (hlow k ((List.pairwise_cons.mp hkl).1 i him))

/-- The state with a class's waiting item in a slot. -/
def State.placed (s : State) (i : Fin 4) (c : ItemClass) (item : Item) : State :=
  (s.dropWaiting c).setRch { (s.dropWaiting c).rch with
    slots := (s.dropWaiting c).rch.slots.set i (.occupied item) }

theorem State.placeOne_placed {s : State} {i : Fin 4} {c : ItemClass} {item : Item} (hi : s.rch.emptySlot = some i)
    (hc : s.nextClass = some c) (hw : s.waiting c = some item) : s.placeOne = some (s.placed i c item) := by
  unfold State.placeOne
  rw [hi, hc]
  simp only [hw]
  rfl

theorem State.placeOne_eq_none {s : State} (h : (∀ i : Fin 4, s.rch.slots[i] ≠ .empty) ∨
    ∀ c, ¬ s.placeable c = true) : s.placeOne = none := by
  cases hp : s.placeOne with
  | none => rfl
  | some t =>
    obtain ⟨i, c, y, hi, hc, -, -⟩ := State.placeOne_spec hp
    rcases h with h | h
    · exact absurd hi (h i)
    · exact absurd (List.of_mem_filter (argMin_mem _ hc)) (h c)

/-- Placements beyond the number of EMPTY slots do nothing. -/
theorem State.placeUpTo_succ (n : Nat) : ∀ s : State, s.rch.empties ≤ n →
    State.placeUpTo (n + 1) s = State.placeUpTo n s := by
  induction n with
  | zero =>
    intro s h
    have hp : s.placeOne = none := by
      cases hp : s.placeOne with
      | none => rfl
      | some t =>
        have := State.placeOne_empties hp
        omega
    unfold State.placeUpTo
    rw [hp]
  | succ n ih =>
    intro s h
    cases hp : s.placeOne with
    | none =>
      unfold State.placeUpTo
      rw [hp]
    | some t =>
      have := State.placeOne_empties hp
      rw [State.placeUpTo, State.placeUpTo, hp]
      exact ih t (by omega)

theorem Rch.empties_le (r : Rch) : r.empties ≤ 4 := by
  have := List.countP_le_length (p := fun t => decide (t = .empty)) (l := r.slots.toList)
  simpa [Rch.empties] using this

theorem State.fill_open {s : State} (h : s.lnk.state ≠ .down) : s.fill = State.placeUpTo 4 s :=
  if_pos (decide_eq_true h)

theorem State.fill_none {s : State} (h : s.placeOne = none) : s.fill = s := by
  unfold State.fill State.placeUpTo
  rw [h]
  exact ite_self s

/-- A fill is one placement and the fill of what it leaves. -/
theorem State.fill_placeOne {s t : State} (hs : s.lnk.state ≠ .down) (h : s.placeOne = some t) : s.fill = t.fill := by
  have ht : t.lnk.state ≠ .down := by
    rw [(State.placeOne_only h).lnk]
    exact hs
  have hn := State.placeOne_empties h
  have h4 := s.rch.empties_le
  rw [State.fill_open hs, State.fill_open ht, State.placeUpTo_succ 3 t (by omega), State.placeUpTo, h]

/-! ## Motion supersede (R159) -/

theorem Rch.pend_eq (r : Rch) (payload : List Byte) : r.pend payload = { r with
    pendingMotion := some payload
    superseded := if r.pendingMotion = none then r.superseded else satInc r.superseded } := by
  unfold Rch.pend
  cases r.pendingMotion <;> rfl

/-- An item is a motion report by its class. -/
theorem TxSlot.motion_iff (t : TxSlot) : t.item.map Item.itemClass = some .motion ↔ ∃ p, t.item = some (.motion p) := by
  constructor
  · intro h
    obtain ⟨x, hx, hc⟩ := Option.map_eq_some_iff.mp h
    cases x with
    | motion p => exact ⟨p, hx⟩
    | reply _ => cases hc
    | report _ => cases hc
    | capture _ => cases hc
  · rintro ⟨p, hp⟩
    rw [hp]
    rfl

theorem Rch.motionSlot_none {r : Rch} (h : ∀ i : Fin 4, ∀ p, r.slots[i].item ≠ some (.motion p)) :
    r.motionSlot = none := by
  cases hm : r.motionSlot with
  | none => rfl
  | some i =>
    obtain ⟨p, hp⟩ := (TxSlot.motion_iff _).mp (Rch.motionSlot_some hm)
    exact absurd hp (h i p)

theorem Rch.motionSlot_eq_some {r : Rch} {i : Fin 4} {p : List Byte} (hi : r.slots[i].item = some (.motion p))
    (hn : ∀ j : Fin 4, j ≠ i → ∀ q, r.slots[j].item ≠ some (.motion q)) : r.motionSlot = some i := by
  cases hm : r.motionSlot with
  | none =>
    have := List.find?_eq_none.mp hm i (by fin_cases i <;> simp)
    rw [decide_eq_true_eq, hi] at this
    exact absurd rfl this
  | some k =>
    obtain ⟨q, hq⟩ := (TxSlot.motion_iff _).mp (Rch.motionSlot_some hm)
    by_contra hk
    exact hn k (fun hc => hk (congrArg some hc)) q hq

/-! ## Arbitration (R157) -/

/-- The OCCUPIED slots, lowest first. -/
def Rch.offers (r : Rch) : List (Fin 4 × Item) :=
  ([0, 1, 2, 3] : List (Fin 4)).filterMap fun i =>
    match r.slots[i] with
    | .occupied item => some (i, item)
    | _ => none

theorem Rch.winner_eq (r : Rch) :
    r.winner = argMin (fun p : Fin 4 × Item => r.priority.get p.2.itemClass) r.offers := rfl

theorem Rch.mem_offers {r : Rch} {i : Fin 4} {item : Item} :
    (i, item) ∈ r.offers ↔ r.slots[i] = .occupied item := by
  unfold Rch.offers
  rw [List.mem_filterMap]
  constructor
  · rintro ⟨j, -, hj⟩
    split at hj
    · rename_i y hy
      cases hj
      exact hy
    · cases hj
  · intro h
    refine ⟨i, by fin_cases i <;> simp, ?_⟩
    split
    · rename_i y hy
      rw [h] at hy
      cases hy
      rfl
    · rename_i hn
      exact absurd h (hn item)

theorem Rch.offers_pairwise (r : Rch) : r.offers.Pairwise fun x y => x.1.val < y.1.val := by
  have hs : ([0, 1, 2, 3] : List (Fin 4)).Pairwise (· < ·) := by decide
  refine List.pairwise_filterMap.mpr (hs.imp fun {i j} hij b hb c hc => ?_)
  split at hb
  · split at hc
    · cases hb
      cases hc
      exact hij
    · cases hc
  · cases hb

section arbitrate
variable {s : State}

theorem State.arbitrate_stays (h : s.lnk.state = .down ∨ s.lnk.u0 ≠ .idle ∨ s.lnk.suspended = true ∨
    ∀ (i : Fin 4) (item : Item), s.rch.slots[i] ≠ .occupied item) : s.arbitrate = s := by
  rcases h with h | h | h | h
  · exact if_neg (by simp [State.laneOpen, h])
  · exact if_neg (by simp [h])
  · exact if_neg (by simp [h])
  · rcases s.arbitrate_cases with ha | ⟨i, y, -, hw, -⟩
    · exact ha
    · exact absurd (winner_occupied hw) (h i y)

theorem State.arbitrate_grants {i : Fin 4} {item : Item} (hs : s.lnk.state ≠ .down) (hu : s.lnk.u0 = .idle)
    (hl : s.lnk.suspended = false) (hi : s.rch.slots[i] = .occupied item)
    (hmin : ∀ (j : Fin 4) (other : Item), s.rch.slots[j] = .occupied other →
      s.rch.priority.get item.itemClass < s.rch.priority.get other.itemClass ∨
        (s.rch.priority.get item.itemClass = s.rch.priority.get other.itemClass ∧ i ≤ j)) :
    s.arbitrate = s.grant i item := by
  have hw : s.rch.winner = some (i, item) :=
    (Rch.winner_eq _).trans (argMin_eq_some (rank := fun p => p.1.val) s.rch.offers_pairwise (Rch.mem_offers.mpr hi)
      fun x hx => hmin x.1 x.2 (Rch.mem_offers.mp hx))
  refine (if_pos (by simp [State.laneOpen, hs, hu, hl])).trans ?_
  rw [hw]

end arbitrate

theorem exec_abilityWordEnd {s : State} {w : PartWord} {ends : Nat} (hp : s.powered = true)
    (h : s.lnk.u0 = .abilityWord w ends) : exec .abilityWordEnd s = .next (s.advanceTo ends).freeLane := by
  have he : exec .abilityWordEnd s = execAbilityWordEnd s := rfl
  rw [he, execAbilityWordEnd, State.live_powered hp]
  simp only [h]

/-- A lane freed beside no OCCUPIED slot takes the ability word in TRAIN, and idles elsewhere. -/
theorem State.freeLane_unoffered {s : State} (hl : s.lnk.suspended = false)
    (hn : ∀ (i : Fin 4) (item : Item), s.rch.slots[i] ≠ .occupied item) : s.freeLane =
      if s.lnk.state = .train then s.setLnk { s.lnk with
        u0 := .abilityWord ⟨true, true, 4, true, s.lnk.sentRequest, s.lnk.sentUser⟩ (s.osc + 192) }
      else s.setLnk { s.lnk with u0 := .idle } := by
  have ha : s.laneFreed.arbitrate = s.laneFreed := State.arbitrate_stays (.inr (.inr (.inr hn)))
  rw [State.freeLane_open hl, ha]
  by_cases ht : s.lnk.state = .train
  · rw [if_pos ht, if_pos ⟨rfl, ht⟩]
    rfl
  · rw [if_neg ht, if_neg fun hc => ht hc.2]
    rfl

theorem State.freeLane_offered {s : State} {i : Fin 4} {item : Item} (hl : s.lnk.suspended = false)
    (hs : s.lnk.state ≠ .down) (hi : s.rch.slots[i] = .occupied item)
    (hmin : ∀ (j : Fin 4) (other : Item), s.rch.slots[j] = .occupied other →
      s.rch.priority.get item.itemClass < s.rch.priority.get other.itemClass ∨
        (s.rch.priority.get item.itemClass = s.rch.priority.get other.itemClass ∧ i ≤ j)) :
    s.freeLane = s.grant i item := by
  have ha : s.laneFreed.arbitrate = s.laneFreed.grant i item :=
    State.arbitrate_grants (s := s.laneFreed) hs rfl hl hi hmin
  rw [State.freeLane_open hl, ha, if_neg (fun hc => nomatch hc.1)]
  rfl

/-- Settles O52: fill, supersede, arbitration and the ability word's end, each from its lemmas. -/
theorem freeLaneGrantsBestSlot : Obligations.FreeLaneGrantsBestSlot := by
  unfold Obligations.FreeLaneGrantsBestSlot
  refine ⟨fun s hs => ?_, fun payload s => ?_, fun s => ?_, fun s w ends hp hu => ?_⟩
  · intro rank may
    have hrank : ∀ c, rank c = c.fillRank := fun c => by cases c <;> rfl
    have hmay : ∀ c, s.placeable c = true ↔ may c := s.placeable_iff
    refine ⟨fun h => State.fill_none (State.placeOne_eq_none (h.imp_right fun h c hc => h c ((hmay c).mp hc))),
      fun i c item hi hlow hc hw hmin => ?_⟩
    have hnext : s.nextClass = some c := by
      refine State.nextClass_eq_some ((hmay c).mpr hc) fun d hd => ?_
      rw [← hrank, ← hrank]
      exact hmin d ((hmay d).mp hd)
    exact State.fill_placeOne hs (State.placeOne_placed (Rch.emptySlot_eq_some hi hlow) hnext hw)
  · intro pend
    have hpend : s.setRch (s.rch.pend payload) = pend := by rw [Rch.pend_eq]
    refine ⟨fun hn => ?_, fun i old hn => ⟨fun hi => ?_, fun hi => ?_⟩⟩
    · have ho : s.offerMotion payload = pend.place := by
        unfold State.offerMotion
        rw [Rch.motionSlot_none hn, hpend]
      rw [ho]
      exact pend.place_only
    · have hm : s.rch.motionSlot = some i := Rch.motionSlot_eq_some (by rw [hi]; rfl) hn
      unfold State.offerMotion
      rw [hm]
      simp only [hi]
    · have hm : s.rch.motionSlot = some i := Rch.motionSlot_eq_some (by rw [hi]; rfl) hn
      unfold State.offerMotion
      rw [hm]
      simp only [hi]
      exact hpend
  · exact ⟨State.arbitrate_stays, fun i item h1 h2 h3 h4 h5 => State.arbitrate_grants h1 h2 h3 h4 h5⟩
  · intro u
    have he := exec_abilityWordEnd hp hu
    refine ⟨fun hl hs => ⟨fun hn => ?_, fun i item hi hmin => ?_⟩, fun hl => ⟨fun hq => ?_, fun g rest hq => ?_⟩⟩
    · rw [State.freeLane_unoffered (s := s.advanceTo ends) hl hn] at he
      exact ⟨fun ht => he.trans (congrArg _ (if_pos ht)), fun ht => he.trans (congrArg _ (if_neg ht))⟩
    · rw [State.freeLane_offered (s := s.advanceTo ends) hl hs hi hmin] at he
      exact he
    · rw [State.freeLane_noEcho (s := s.advanceTo ends) hl hq] at he
      exact he
    · rw [State.freeLane_nextEcho (s := s.advanceTo ends) hl hq] at he
      exact he

end Sys2Proof.Machine
end

section
/-! The end of a slot's transmission (9.3.2). -/

namespace Sys2Proof.Machine

theorem exec_transmissionComplete {s : State} {i : Fin 4} {item : Item} {f : List Byte} {ends : Nat}
    (hp : s.powered = true) (hu : s.lnk.u0 = .slot i f ends) (hi : s.rch.slots[i] = .transmitting item) :
    exec .transmissionComplete s = .next ((s.advanceTo ends).completeSlot i item) := by
  have he : exec .transmissionComplete s = execTransmissionComplete s := rfl
  rw [he, execTransmissionComplete, State.live_powered hp]
  simp only [hu, hi]

/-! ## The source is told (R157 step 2) -/

theorem State.told_silent {item : Item} (h : ∀ r, item ≠ .reply r) (s : State) : s.told item = s := by
  cases item with
  | reply r => exact absurd rfl (h r)
  | report _ => rfl
  | motion _ => rfl
  | capture _ => rfl

theorem Lnk.startLoopback_armed {l : Lnk} {d serial : Nat} (h : l.loopback = .armed d serial) (osc : Nat) :
    l.startLoopback serial osc = { l with loopback := .running (osc + ms (d * 1000)) } := by
  unfold Lnk.startLoopback
  rw [h]
  exact if_pos rfl

theorem Lnk.startLoopback_other {l : Lnk} {serial : Nat} (h : ∀ d, l.loopback ≠ .armed d serial) (osc : Nat) :
    l.startLoopback serial osc = l := by
  unfold Lnk.startLoopback
  split
  · rename_i d n hl
    refine if_neg fun hn => h d ?_
    rw [hl, hn]
  · rfl

theorem Mge.endsReset_silent {item : Item} (h : ∀ r, item ≠ .reply r) (m : Mge) : m.endsReset item = false := by
  cases item with
  | reply r => exact absurd rfl (h r)
  | report _ => rfl
  | motion _ => rfl
  | capture _ => rfl

theorem Mge.endsReset_reply (m : Mge) (r : Reply) :
    m.endsReset (.reply r) = true ↔ ∃ e ∈ m.inProgress, e.resource = .reset r.serial := by
  unfold Mge.endsReset
  rw [List.any_eq_true]
  exact exists_congr fun e => and_congr_right fun _ => decide_eq_true_iff

/-! ## The lane after the frame (R157 step 4) -/

section afterFrame
variable {z : State}

theorem State.afterFrame_train (h : z.lnk.state = .train) : z.afterFrame = z.setLnk { z.lnk with
    u0 := .abilityWord ⟨true, true, 4, true, z.lnk.sentRequest, z.lnk.sentUser⟩ (z.osc + 192) } := if_pos h

theorem State.afterFrame_free (h : z.lnk.state ≠ .train) : z.afterFrame = z.freeLane := if_neg h

theorem State.laneFreed_idle (h : z.lnk.u0 = .idle) : z.laneFreed = z := by
  unfold State.laneFreed
  rw [← h]
  rfl

theorem State.afterFrame_open (h : z.lnk.state ≠ .train) (hl : z.lnk.suspended = false) (hu : z.lnk.u0 = .idle) :
    z.afterFrame = z.arbitrate := by
  rw [State.afterFrame_free h, State.freeLane_open hl, if_neg fun hc => h hc.2, State.laneFreed_idle hu]

theorem State.afterFrame_noEcho (h : z.lnk.state ≠ .train) (hl : z.lnk.suspended = true) (hq : z.lnk.echoQueue = [])
    (hu : z.lnk.u0 = .idle) : z.afterFrame = z := by
  rw [State.afterFrame_free h, State.freeLane_noEcho hl hq]
  exact State.laneFreed_idle hu

end afterFrame

/-! ## The steps together -/

/-- What `z`, the state told of the item sent, is of the state before. -/
structure SentFrom (s : State) (i : Fin 4) (ends : Nat) (z : State) : Prop where
  state : z.lnk.state = s.lnk.state
  idle : z.lnk.u0 = .idle
  request : z.lnk.sentRequest = s.lnk.sentRequest
  user : z.lnk.sentUser = s.lnk.sentUser
  echoQueue : z.lnk.echoQueue = s.lnk.echoQueue
  osc : z.osc = (s.advanceTo ends).osc
  slots : z.rch.slots = s.rch.slots.set i .empty
  queued : ∀ d, z.queued d = s.queued d

/-- The item is gone with its slot. -/
theorem SentFrom.items {s z : State} {i : Fin 4} {ends : Nat} (h : SentFrom s i ends z) (a : Item) :
    a ∈ z.fill.items ↔ (∃ j : Fin 4, j ≠ i ∧ s.rch.slots[j].item = some a) ∨ ∃ d, a ∈ s.queued d := by
  rw [State.fill_items, mem_items]
  refine or_congr (exists_congr fun j => ?_) (exists_congr fun d => by rw [h.queued])
  rw [h.slots, getSlot_set]
  by_cases hj : i = j
  · rw [if_pos hj]
    exact ⟨nofun, fun hc => absurd hj.symm hc.1⟩
  · rw [if_neg hj]
    exact ⟨fun hc => ⟨Ne.symm hj, hc⟩, fun hc => hc.2⟩

section afterSent
variable {s z : State} {i : Fin 4} {ends : Nat} (h : SentFrom s i ends z)
include h

theorem SentFrom.afterFrame_train (ht : s.lnk.state = .train) : z.fill.afterFrame = z.fill.setLnk { z.lnk with
    u0 := .abilityWord ⟨true, true, 4, true, s.lnk.sentRequest, s.lnk.sentUser⟩
      ((s.advanceTo ends).osc + 192) } := by
  have hz : z.fill.lnk.state = .train := by rw [z.fill_lnk, h.state, ht]
  have hosc : z.fill.osc = (s.advanceTo ends).osc := z.fill_only.osc.trans h.osc
  rw [State.afterFrame_train hz, z.fill_lnk, hosc, h.request, h.user]

theorem SentFrom.afterFrame_open (ht : s.lnk.state ≠ .train) (hl : z.lnk.suspended = false) :
    z.fill.afterFrame = z.fill.arbitrate :=
  State.afterFrame_open (by rwa [z.fill_lnk, h.state]) (by rw [z.fill_lnk, hl]) (by rw [z.fill_lnk, h.idle])

theorem SentFrom.afterFrame_noEcho (ht : s.lnk.state ≠ .train) (hl : z.lnk.suspended = true)
    (hq : s.lnk.echoQueue = []) : z.fill.afterFrame = z.fill :=
  State.afterFrame_noEcho (by rwa [z.fill_lnk, h.state]) (by rw [z.fill_lnk, hl])
    (by rw [z.fill_lnk, h.echoQueue, hq]) (by rw [z.fill_lnk, h.idle])

theorem SentFrom.afterFrame_nextEcho {g : List Byte} {rest : List (List Byte)} (ht : s.lnk.state ≠ .train)
    (hl : z.lnk.suspended = true) (hq : s.lnk.echoQueue = g :: rest) : z.fill.afterFrame = z.fill.setLnk { z.lnk with
      echoQueue := rest, u0 := .echo g false ((s.advanceTo ends).osc + g.length * 24) } := by
  have hosc : z.fill.osc = (s.advanceTo ends).osc := z.fill_only.osc.trans h.osc
  have hz : z.fill.lnk.state ≠ .train := by rwa [z.fill_lnk, h.state]
  have hs : z.fill.lnk.suspended = true := by rw [z.fill_lnk, hl]
  have he : z.fill.lnk.echoQueue = g :: rest := by rw [z.fill_lnk, h.echoQueue, hq]
  rw [State.afterFrame_free hz, State.freeLane_nextEcho hs he, z.fill_lnk, hosc]

end afterSent

theorem State.completeSlot_told {s : State} {i : Fin 4} {item : Item} (hr : s.mge.endsReset item = false) :
    s.completeSlot i item = ((s.clearSlot i item).told item).fill.afterFrame := if_neg (by rw [hr]; decide)

/-- Settles O53. The state told of the item sent is `x`, `y` or `y` with the loopback started; what follows is one
argument over it. -/
theorem transmissionCompletes : Obligations.TransmissionCompletes := by
  unfold Obligations.TransmissionCompletes
  intro s i item f ends hp hu hi u c x y goes
  have he := exec_transmissionComplete hp hu hi
  have hgo : ∀ z, s.mge.endsReset item = false → (u.clearSlot i item).told item = z → SentFrom s i ends z →
      goes z := fun z hr hz hsent => by
    rw [State.completeSlot_told (s := s.advanceTo ends) hr, hz] at he
    have hitems := hsent.items
    refine ⟨fun ht => ⟨?_, hitems⟩, fun ht => ⟨fun hl => ⟨?_, fun a => ?_⟩, fun hl hq => ⟨?_, hitems⟩,
      fun g rest hl hq => ⟨?_, hitems⟩⟩⟩
    · exact he.trans (congrArg _ (hsent.afterFrame_train ht))
    · exact he.trans (congrArg _ (hsent.afterFrame_open ht hl))
    · exact (State.arbitrate_items _ a).trans (hitems a)
    · exact he.trans (congrArg _ (hsent.afterFrame_noEcho ht hl hq))
    · exact he.trans (congrArg _ (hsent.afterFrame_nextEcho ht hl hq))
  have hqueued : ∀ d, x.queued d = s.queued d := fun d => by cases d <;> rfl
  refine ⟨fun hn => ?_, ?_⟩
  · exact hgo x (Mge.endsReset_silent hn _) (State.told_silent hn _) ⟨rfl, rfl, rfl, rfl, rfl, rfl, rfl, hqueued⟩
  · rintro r rfl hn
    have hr : s.mge.endsReset (.reply r) = false := Bool.eq_false_iff.mpr fun hc => by
      obtain ⟨e, he, hs⟩ := (s.mge.endsReset_reply r).mp hc
      exact hn e he hs
    refine ⟨fun hl => hgo y hr ?_ ⟨rfl, rfl, rfl, rfl, rfl, rfl, rfl, hqueued⟩,
      fun d hl => hgo _ hr ?_ ⟨rfl, rfl, rfl, rfl, rfl, rfl, rfl, hqueued⟩⟩
    · have hloop : x.lnk.startLoopback r.serial x.osc = x.lnk := Lnk.startLoopback_other (l := x.lnk) hl _
      show y.setLnk (x.lnk.startLoopback r.serial x.osc) = y
      rw [hloop]
      rfl
    · have hloop : x.lnk.startLoopback r.serial x.osc = _ := Lnk.startLoopback_armed (l := x.lnk) hl _
      show y.setLnk (x.lnk.startLoopback r.serial x.osc) = _
      rw [hloop]
      rfl

end Sys2Proof.Machine
end

section
/-! Hub Reset (10.5): its dispatch, and its effect at the end of its reply's transmission. -/

namespace Sys2Proof.Machine

theorem exec_hubReset (tag : Byte) (ps : List Byte) (s : State) :
    exec (.hubReset tag ps) s = s.long 0x75 tag ps (hubReset tag) := rfl

/-! ## Dispatch (R173) -/

theorem InProgress.resets_iff (e : InProgress) : e.resets = true ↔ ∃ n, e.resource = .reset n := by
  unfold InProgress.resets
  cases e.resource <;> simp

section hubReset
variable {s : State} {tag : Byte}

theorem hubReset_starts (ho : s.cst.op = .idle) (hn : ∀ e ∈ s.mge.inProgress, ∀ n, e.resource ≠ .reset n) :
    hubReset tag [] s = .started (.reset s.mge.nextSerial) (s.formReply 0x75 tag .done []) := by
  refine (if_neg (by simp)).trans (if_neg ?_)
  rintro (h | h)
  · exact h ho
  · obtain ⟨e, he, hr⟩ := List.any_eq_true.mp h
    obtain ⟨n, hr⟩ := e.resets_iff.mp hr
    exact hn e he n hr

theorem hubReset_busy (h : s.cst.op ≠ .idle ∨ ∃ e ∈ s.mge.inProgress, ∃ n, e.resource = .reset n) :
    hubReset tag [] s = .answered (s.refuse .busy) := by
  refine (if_neg (by simp)).trans (if_pos (h.imp_right ?_))
  rintro ⟨e, he, hr⟩
  exact List.any_eq_true.mpr ⟨e, he, e.resets_iff.mpr hr⟩

end hubReset

/-! ## The effect (R173) -/

theorem State.fill_serial (s : State) : SameSerial s s.fill := by
  unfold State.fill
  split
  · exact State.placeUpTo_serial 4 s
  · rfl

/-- A fill moves nothing that a Hub Reset leaves. -/
theorem State.fill_hubResetEffect (s : State) : s.fill.hubResetEffect = s.hubResetEffect := by
  have h := s.fill_only
  have haud : s.fill.aud.hubReset = s.aud.hubReset := by
    rw [h.aud]
    rfl
  have hmge : s.fill.mge.hubReset = s.mge.hubReset := by
    unfold Mge.hubReset
    rw [s.fill_serial]
  unfold State.hubResetEffect
  rw [h.osc, h.powered, h.freeIndex, h.tas, h.smp, h.ori, h.fri, h.sco, h.pmg, h.cfl, h.cst, h.pending, h.turns,
    s.fill_lnk, haud, hmge]

/-- A loopback after a Hub Reset: one still ARMED ends. -/
def Loopback.disarmed : Loopback → Loopback
  | .armed _ _ => .none
  | x => x

theorem Lnk.hubReset_eq (l : Lnk) : l.hubReset = { l with loopback := l.loopback.disarmed } := by
  unfold Lnk.hubReset
  split
  · rename_i d n h
    rw [h]
    rfl
  · rename_i hn
    have hd : l.loopback.disarmed = l.loopback := by
      cases h : l.loopback with
      | armed d n => exact absurd h (hn d n)
      | none => rfl
      | running e => rfl
    rw [hd]

theorem Lnk.hubReset_suspended (l : Lnk) : l.hubReset.suspended = l.suspended := by
  rw [Lnk.hubReset_eq]
  unfold Lnk.suspended
  cases l.loopback <;> rfl

/-- The store's load begins, or is owed while the array is written. -/
theorem Cst.hubReset_cases (c : Cst) (osc : Nat) :
    ((∃ p e, c.op = .erasing p e) ∨ (∃ p o d e, c.op = .programming p o d e) →
      c.hubReset osc = { c with loadOwed := true }) ∧
    (¬ ((∃ p e, c.op = .erasing p e) ∨ ∃ p o d e, c.op = .programming p o d e) →
      c.hubReset osc = { c with op := .loading (osc + ms 5) }) := by
  unfold Cst.hubReset
  split
  · rename_i p e h
    exact ⟨fun _ => rfl, fun hn => absurd (.inl ⟨p, e, h⟩) hn⟩
  · rename_i p o d e h
    exact ⟨fun _ => rfl, fun hn => absurd (.inr ⟨p, o, d, e, h⟩) hn⟩
  · rename_i he hq
    refine ⟨fun h => ?_, fun _ => rfl⟩
    rcases h with ⟨p, e, h⟩ | ⟨p, o, d, e, h⟩
    · exact absurd h (he p e)
    · exact absurd h (hq p o d e)

/-- A slot is FREE, its lines standing as they are. -/
theorem Eye.hubReset_slot {d e : Eye} (h : d = e.hubReset) (j : Fin 3) :
    d.slots[j].state = .free ∧ d.slots[j].lines = e.slots[j].lines := by
  subst h
  have hj : e.hubReset.slots[j] = { FrameSlot.freed with lines := e.slots[j].lines } := by
    simp only [Eye.hubReset, Fin.getElem_fin, Vector.getElem_map]
  rw [hj]
  exact ⟨rfl, rfl⟩

/-- The free lane of a state whose slots are EMPTY: the word in TRAIN, the next echo of a running loopback, and
else nothing. -/
theorem State.afterFrame_unoffered {z : State} (hn : ∀ (i : Fin 4) (item : Item), z.rch.slots[i] ≠ .occupied item)
    (hu : z.lnk.u0 = .idle) : ∃ l, z.afterFrame = z.setLnk l ∧
      (z.lnk.state = .train → l = { z.lnk with
        u0 := .abilityWord ⟨true, true, 4, true, z.lnk.sentRequest, z.lnk.sentUser⟩ (z.osc + 192) }) ∧
      (z.lnk.state ≠ .train → z.lnk.suspended = false ∨ z.lnk.echoQueue = [] → l = z.lnk) ∧
      ∀ g rest, z.lnk.state ≠ .train → z.lnk.suspended = true → z.lnk.echoQueue = g :: rest →
        l = { z.lnk with echoQueue := rest, u0 := .echo g false (z.osc + g.length * 24) } := by
  by_cases ht : z.lnk.state = .train
  · exact ⟨_, State.afterFrame_train ht, fun _ => rfl, fun h => absurd ht h, fun _ _ h => absurd ht h⟩
  · cases hl : z.lnk.suspended with
    | false =>
      have ha : z.arbitrate = z := State.arbitrate_stays (.inr (.inr (.inr hn)))
      exact ⟨z.lnk, (State.afterFrame_open ht hl hu).trans ha, fun h => absurd h ht, fun _ _ => rfl, nofun⟩
    | true =>
      cases hq : z.lnk.echoQueue with
      | nil => exact ⟨z.lnk, State.afterFrame_noEcho ht hl hq hu, fun h => absurd h ht, fun _ _ => rfl, nofun⟩
      | cons g rest =>
        refine ⟨_, (State.afterFrame_free ht).trans (State.freeLane_nextEcho hl hq), fun h => absurd h ht,
          fun _ h => ?_, ?_⟩
        · rcases h with h | h <;> cases h
        · rintro g' rest' - - h
          cases h
          rfl

theorem State.completeSlot_resets {s : State} {i : Fin 4} {item : Item} (h : s.mge.endsReset item = true) :
    s.completeSlot i item = (((s.clearSlot i item).told item).hubResetEffect).afterFrame := by
  rw [← State.fill_hubResetEffect]
  exact if_pos h

/-- Settles O51. At the end of the reply's transmission the state is the Hub Reset's effect on the one told of the
reply, but for the link; every slot being EMPTY, the free lane touches the link alone. -/
theorem hubResetTakesEffectWhenSent : Obligations.HubResetTakesEffectWhenSent := by
  unfold Obligations.HubResetTakesEffectWhenSent
  refine ⟨fun tag s h => ?_, fun s i r f ends hp hu hi hr hl => ?_⟩
  · rw [exec_hubReset]
    refine ⟨fun ho hn => ?_, fun hb => State.long_refused h (hubReset_busy (s := s.popRequest) hb)⟩
    have ha := hubReset_starts (s := s.popRequest) (tag := tag) ho hn
    have honly := s.popRequest.formReply_only 0x75 tag .done []
    have he := State.long_starts_joins h ha honly.inProgress
    exact ⟨_, he, honly.setInProgress (s.mge.inProgress ++ [(⟨0x75, tag, .reset s.mge.nextSerial⟩ : InProgress)]),
      s.popRequest.formReply_answered 0x75 tag .done []⟩
  · intro u writes l
    have he := exec_transmissionComplete hp hu hi
    rw [State.completeSlot_resets (s := s.advanceTo ends) ((Mge.endsReset_reply _ r).mpr hr)] at he
    let x := u.clearSlot i (.reply r)
    let z := x.setMge { s.mge with admitted := s.mge.admitted - 1 }
    let w := z.hubResetEffect
    have hloop : x.lnk.startLoopback r.serial x.osc = x.lnk := Lnk.startLoopback_other (l := x.lnk) hl _
    have htold : x.told (.reply r) = z := by
      show z.setLnk (x.lnk.startLoopback r.serial x.osc) = z
      rw [hloop]
      rfl
    have hlnk : w.lnk = { l with u0 := .idle } := (Lnk.hubReset_eq x.lnk).trans rfl
    have hsus : w.lnk.suspended = s.lnk.suspended := Lnk.hubReset_suspended x.lnk
    have hempty : ∀ j : Fin 4, w.rch.slots[j] = .empty := fun j => by fin_cases j <;> rfl
    obtain ⟨m, hm, htrain, hidle, hecho⟩ := State.afterFrame_unoffered (z := w)
      (fun j y => by rw [hempty]; exact nofun) (by rw [hlnk])
    change _ = Host.Outcome.next ((x.told (.reply r)).hubResetEffect).afterFrame at he
    rw [htold, hm] at he
    rw [hsus] at hidle hecho
    rw [hlnk] at htrain hidle hecho
    have heye : ∀ q, w.fri.eyes.get q = (s.fri.eyes.get q).hubReset := s.fri.mapEyes_get Eye.hubReset
    obtain ⟨howed, hload⟩ := s.cst.hubReset_cases u.osc
    refine ⟨_, he, rfl, rfl, rfl, rfl, rfl, rfl, rfl, rfl, rfl, rfl, rfl, hempty, rfl, rfl, rfl, htrain, hidle, hecho,
      rfl, rfl, rfl, rfl, rfl, rfl, fun q => ⟨?_, ?_, fun j => ⟨?_, ?_⟩⟩, rfl, rfl, fun q => ?_, rfl, rfl, rfl, rfl, rfl,
      rfl, rfl, rfl, rfl, rfl, rfl, rfl, rfl, rfl, howed, hload⟩
    · exact congrArg Eye.completions (heye q)
    · exact congrArg Eye.counters (heye q)
    · exact (Eye.hubReset_slot (heye q) j).1
    · exact (Eye.hubReset_slot (heye q) j).2
    · cases q <;> rfl

end Sys2Proof.Machine
end
